-- ==== Sys2Proof/Word.lean ====
section
/-! DEFINITION. The bit-vector types of the format-table decoder (FTD): 00_scope.md rules R9 and R10. -/

namespace Sys2Proof

/-- One byte of the input stream (20_memory.md rule R28). -/
abbrev Byte := BitVec 8

/-- A 16-bit pattern: a displacement or an immediate value (00_scope.md, "Value widths fixed by the source"). -/
abbrev Word := BitVec 16

/-- A general-register or r/m field, 0 to 7 (30_encoding.md rule R42, kinds `REG` and `RM`). -/
abbrev Reg3 := BitVec 3

/-- A segment-register field, 0 to 3 (30_encoding.md rule R42, kind `SR`). -/
abbrev Seg2 := BitVec 2

end Sys2Proof
end

