-- ==== Sys2Proof/Config.lean ====
section
/-! DEFINITION. What an instance of the FTD fixes when it is built: the types of its format table (30_encoding.md
rules R42 to R46), its parameters (00_scope.md rule R8), and the free values, which the spec leaves open. -/

namespace Sys2Proof

/-- The field kinds of 30_encoding.md rule R42, in the order of their codes 0 to 15. -/
inductive FieldKind where
  | lit | mod | reg | rm | d | w | s | sr
  | disp | data | dispWFlag | hasData | dataWFollowsW | rmAlwaysW
  /-- Code 14, reserved: a table that uses it is ill-formed (rule R49). -/
  | reserved14
  /-- Code 15, reserved: a table that uses it is ill-formed (rule R49). -/
  | reserved15
  deriving DecidableEq, Repr

/-- The tags of a row: the operation tags of 30_encoding.md rule R46, in the order of their codes 0 to 34, and the codes
above. The tags `in` and `out` are
written `inp` and `outp`, because `in` is a word of Lean. -/
inductive Tag where
  | none
  | mov | push | pop | xchg | inp | outp
  | xlat | lea | lds | les | lahf | sahf | pushf
  | popf | add | adc | inc | aaa | daa | sub
  | sbb | dec | neg | cmp | aas | das | mul
  | imul | aam | div | idiv | aad | cbw | cwd
  /-- Tag code `35 + n`, which names no operation: a row header has eight bits for the code (rule R45), and a table that
  uses one of these 221 codes is ill-formed (rule R54). -/
  | unassigned (n : Fin 221)
  deriving DecidableEq, Repr

/-- A descriptor `(kind, n, value)` (30_encoding.md rule R43). -/
structure Descriptor where
  kind  : FieldKind
  n     : Nat
  value : Nat
  deriving DecidableEq, Repr

/-- A format row: an operation tag and its descriptors in order (30_encoding.md rule R45). -/
structure Row where
  tag    : Tag
  fields : List Descriptor
  deriving DecidableEq, Repr

/-- The two immediate-equality rules of 40_operand_model.md rule R85. -/
inductive ImmEq where
  | byteTruncated
  | full16
  deriving DecidableEq, Repr

/-- The parameters of an instance (00_scope.md rule R8). `RECOVERY` is `HALT` in every instance the spec describes:
it gives the alternative no effect (43_stream_driver.md rule R126), so it has no field here. -/
structure Params where
  /-- `INPUT_CAPACITY`. -/
  inputCapacity : Nat
  /-- `MAX_FIELDS`. -/
  maxFields : Nat
  /-- `FORMAT_TABLE`. -/
  formatTable : List Row
  /-- `IMM_EQ`. -/
  immEq : ImmEq
  /-- `DIAG_TEXT`: the diagnostic line for an unmatched opcode, from `CUR` and the byte there. -/
  diagText : Nat → Byte → String

/-- `INPUT_CAPACITY` of this hardware (00_scope.md rule R8, decision D5). -/
def Config.inputCapacity : Nat := 262144

/-- `MAX_FIELDS` of this hardware (00_scope.md rule R8, decision D6). -/
def Config.maxFields : Nat := 16

/-- `DIAG_TEXT` of this hardware: OPEN, any single line (00_scope.md rule R8, 44_rendering.md rule R142). A free value:
nothing constrains it (assumption 6). -/
opaque Config.diagText : Nat → Byte → String

/-- The value `FATAL_POS` holds after LOAD or RESET, where 10_state.md rule R27 says "unspecified". A free value, a
fresh one at each use (assumption 3). -/
opaque Config.freeFatalPos : Nat → Nat

/-- Whether a TRY that has a bad row index while `STATUS = FATAL` is answered `REFUSED` (rule R212) or `FATAL` (rule
R209): both rules apply and the spec gives no priority. A free value (assumption 5). -/
opaque Config.badRowBeatsFatal : Bool

end Sys2Proof
end

