-- ==== Sys2Proof/Machine/Table.lean ====
section
/-! DEFINITION. The format table: the codes of its ROM image (30_encoding.md rules R42, R44, R45, R46), the checks
WF1 to WF9 (rules R47 to R55), and the reference table `REF_TABLE` (rule R65) with its opcode map (rule R67). -/

namespace Sys2Proof

/-! ### Codes and the ROM image -/

/-- The 16 field kinds in the order of their codes (rule R42). -/
def FieldKind.all : List FieldKind :=
  [.lit, .mod, .reg, .rm, .d, .w, .s, .sr, .disp, .data, .dispWFlag, .hasData, .dataWFollowsW, .rmAlwaysW,
   .reserved14, .reserved15]

/-- The code of a field kind (rule R42). -/
def FieldKind.code (k : FieldKind) : Nat := FieldKind.all.idxOf k

/-- The kind with a 4-bit code; every code has one, 14 and 15 the reserved kinds (rule R42). -/
def FieldKind.ofCode (c : BitVec 4) : FieldKind := FieldKind.all.getD c.toNat .reserved15

/-- The tags of rule R46 in the order of their codes. -/
def Tag.all : List Tag :=
  [.none, .mov, .push, .pop, .xchg, .inp, .outp, .xlat, .lea, .lds, .les, .lahf, .sahf, .pushf, .popf, .add, .adc,
   .inc,
   .aaa, .daa, .sub, .sbb, .dec, .neg, .cmp, .aas, .das, .mul, .imul, .aam, .div, .idiv, .aad, .cbw, .cwd]

/-- The code of a tag (rules R45 and R46). -/
def Tag.code : Tag → Nat
  | .unassigned n => 35 + n
  | t => Tag.all.idxOf t

/-- The tag with an 8-bit code; every code has one, 35 to 255 the unassigned ones (rules R45 and R46). -/
def Tag.ofCode (c : Byte) : Tag := Tag.all.getD c.toNat (.unassigned ⟨c.toNat - 35, by omega⟩)

/-- The ROM word of a descriptor: `[15:12]` kind, `[11:8]` n, `[7:0]` value (rule R44). -/
def Descriptor.toWord (d : Descriptor) : Word :=
  BitVec.ofNat 4 d.kind.code ++ BitVec.ofNat 4 d.n ++ BitVec.ofNat 8 d.value

/-- The descriptor in a ROM word (rule R44). -/
def Descriptor.ofWord (w : Word) : Descriptor :=
  ⟨FieldKind.ofCode (w.extractLsb' 12 4), (w.extractLsb' 8 4).toNat, (w.extractLsb' 0 8).toNat⟩

/-- The ROM words of a row: the header `[15:8]` tag code, `[7:0]` descriptor count, then the descriptors (rule R45). -/
def Row.toRom (r : Row) : List Word :=
  (BitVec.ofNat 8 r.tag.code ++ BitVec.ofNat 8 r.fields.length) :: r.fields.map Descriptor.toWord

/-- The ROM image of a table: its rows in table order (rule R45). -/
def tableToRom (t : List Row) : List Word := t.flatMap Row.toRom

/-- Reading a ROM image back, at most `fuel` rows: none where the image ends inside a row. Every image of whole rows is a
table, well-formed or not; the instance that holds it checks it (rule R212). -/
def tableOfRomFuel : Nat → List Word → Option (List Row)
  | _, [] => some []
  | 0, _ :: _ => none
  | fuel + 1, h :: rest =>
    let count := (h.extractLsb' 0 8).toNat
    if rest.length < count then none
    else (tableOfRomFuel fuel (rest.drop count)).map
      (⟨Tag.ofCode (h.extractLsb' 8 8), (rest.take count).map Descriptor.ofWord⟩ :: ·)

/-- The table in a ROM image (rule R45). -/
def tableOfRom (rom : List Word) : Option (List Row) := tableOfRomFuel rom.length rom

/-! ### Well-formedness of a table -/

/-- The checks WF1 to WF8, by name (rules R47 to R54). -/
inductive WfCheck where
  | wf1 | wf2 | wf3 | wf4 | wf5 | wf6 | wf7 | wf8
  deriving DecidableEq, Repr

/-- WF1 (rule R47): the first descriptor is a literal of at least one bit. -/
def Row.wf1 (r : Row) : Bool :=
  match r.fields with
  | [] => false
  | d :: _ => d.kind == .lit && decide (1 ≤ d.n)

/-- WF2 (rule R48): between 1 and `MAX_FIELDS` descriptors. -/
def Row.wf2 (maxFields : Nat) (r : Row) : Bool :=
  decide (1 ≤ r.fields.length) && decide (r.fields.length ≤ maxFields)

/-- WF3 (rule R49): no reserved kind, `n ≤ 8`, `value < 256`. -/
def Descriptor.wf3 (d : Descriptor) : Bool :=
  d.kind != .reserved14 && d.kind != .reserved15 && decide (d.n ≤ 8) && decide (d.value < 256)

/-- Whether descriptors, the first starting `used` bits into a byte, fill whole bytes with no field across a boundary. -/
def fieldsFillBytes : Nat → List Descriptor → Bool
  | used, [] => used == 0
  | used, d :: ds => decide (used + d.n ≤ 8) && fieldsFillBytes ((used + d.n) % 8) ds

/-- WF4 (rule R50): the descriptors that consume bits partition whole bytes. -/
def Row.wf4 (r : Row) : Bool := fieldsFillBytes 0 r.fields

/-- The number of bits a kind other than `LIT` takes when it consumes bits; 0 for a kind that never does (rule R42). -/
def FieldKind.width : FieldKind → Nat
  | .mod => 2
  | .reg => 3
  | .rm => 3
  | .d => 1
  | .w => 1
  | .s => 1
  | .sr => 2
  | .lit => 0
  | .disp => 0
  | .data => 0
  | .dispWFlag => 0
  | .hasData => 0
  | .dataWFollowsW => 0
  | .rmAlwaysW => 0
  | .reserved14 => 0
  | .reserved15 => 0

/-- WF5 (rule R51): a literal has `n ≥ 1` and a value below `2^n`; any other descriptor that consumes bits has its
kind's width, which is 0 for the kinds that never do. -/
def Descriptor.wf5 (d : Descriptor) : Bool :=
  if d.kind = .lit then decide (1 ≤ d.n) && decide (d.value < 2 ^ d.n)
  else d.n == 0 || d.n == d.kind.width

/-- WF6 (rule R52): each kind but `LIT` occurs at most once with `n > 0`. -/
def Row.wf6 (r : Row) : Bool :=
  decide ((r.fields.filter fun d => d.kind != .lit && decide (0 < d.n)).map Descriptor.kind).Nodup

/-- The largest value of an implied descriptor of a kind (rule R53). -/
def FieldKind.maxImplied : FieldKind → Nat
  | .mod => 3
  | .reg => 7
  | .rm => 7
  | .d => 1
  | .w => 1
  | .s => 1
  | .sr => 3
  | .lit => 0
  | .disp => 0
  | .data => 0
  | .dispWFlag => 1
  | .hasData => 1
  | .dataWFollowsW => 1
  | .rmAlwaysW => 1
  | .reserved14 => 0
  | .reserved15 => 0

/-- WF7 (rule R53): an implied descriptor has a value in its kind's range. -/
def Descriptor.wf7 (d : Descriptor) : Bool := d.n != 0 || decide (d.value ≤ d.kind.maxImplied)

/-- WF8 (rule R54): at least one row, and every tag a code 1 to 34. -/
def tableWf8 (t : List Row) : Bool :=
  !t.isEmpty && t.all fun r => decide (1 ≤ r.tag.code) && decide (r.tag.code ≤ 34)

/-- The first of WF1 to WF8 that a table fails, none where it passes them all (rule R212, decision D7). -/
def tableRefusedBy (maxFields : Nat) (t : List Row) : Option WfCheck :=
  if !t.all Row.wf1 then some .wf1
  else if !t.all (Row.wf2 maxFields) then some .wf2
  else if !t.all fun r => r.fields.all Descriptor.wf3 then some .wf3
  else if !t.all Row.wf4 then some .wf4
  else if !t.all fun r => r.fields.all Descriptor.wf5 then some .wf5
  else if !t.all Row.wf6 then some .wf6
  else if !t.all fun r => r.fields.all Descriptor.wf7 then some .wf7
  else if !tableWf8 t then some .wf8
  else none

/-- Whether an instance accepts its table at power-on (70_reset_and_hazards.md rule R224). -/
def Params.tableAccepted (p : Params) : Bool := (tableRefusedBy p.maxFields p.formatTable).isNone

/-- The value an implied kind has in the row: of several descriptors the last in order stands (41_extraction_engine.md
rule R95), and a kind that does not occur is 0 (42_decoder.md rule R101). -/
def Row.impliedValue (r : Row) (k : FieldKind) : Nat :=
  match (r.fields.filter fun d => d.kind == k).getLast? with
  | some d => d.value
  | none => 0

/-- WF9 (rule R55), never checked by the FTD: the row does not fill both slots and carry data besides. -/
def Row.wf9 (r : Row) : Bool :=
  !((r.fields.any fun d => d.kind == .reg || d.kind == .sr) && (r.fields.any fun d => d.kind == .rm) &&
    r.impliedValue .hasData != 0)

/-! ### The reference table -/

/-- `LIT(n)=value` (rule R43). -/
def Descriptor.literal (n value : Nat) : Descriptor := ⟨.lit, n, value⟩

/-- `K(n)` (rule R43). -/
def Descriptor.field (k : FieldKind) (n : Nat) : Descriptor := ⟨k, n, 0⟩

/-- `K:=v` (rule R43). -/
def Descriptor.implied (k : FieldKind) (v : Nat) : Descriptor := ⟨k, 0, v⟩

/-- The rows of the reference table by name, F01 to F59 (rule R65). -/
inductive RowId where
  | f01 | f02 | f03 | f04 | f05 | f06 | f07 | f08 | f09 | f10
  | f11 | f12 | f13 | f14 | f15 | f16 | f17 | f18 | f19 | f20
  | f21 | f22 | f23 | f24 | f25 | f26 | f27 | f28 | f29 | f30
  | f31 | f32 | f33 | f34 | f35 | f36 | f37 | f38 | f39 | f40
  | f41 | f42 | f43 | f44 | f45 | f46 | f47 | f48 | f49 | f50
  | f51 | f52 | f53 | f54 | f55 | f56 | f57 | f58 | f59
  deriving DecidableEq, Repr

/-- The 59 rows in table order (rule R65). -/
def RowId.all : List RowId :=
  [.f01, .f02, .f03, .f04, .f05, .f06, .f07, .f08, .f09, .f10,
   .f11, .f12, .f13, .f14, .f15, .f16, .f17, .f18, .f19, .f20,
   .f21, .f22, .f23, .f24, .f25, .f26, .f27, .f28, .f29, .f30,
   .f31, .f32, .f33, .f34, .f35, .f36, .f37, .f38, .f39, .f40,
   .f41, .f42, .f43, .f44, .f45, .f46, .f47, .f48, .f49, .f50,
   .f51, .f52, .f53, .f54, .f55, .f56, .f57, .f58, .f59]

/-- The index of a row in `REF_TABLE`: F01 is 0, F59 is 58 (rule R65). -/
def RowId.index (r : RowId) : Nat := RowId.all.idxOf r

/-- The row with an index, none outside `0..58`. -/
def RowId.ofIndex (i : Nat) : Option RowId := RowId.all[i]?

/-- The tag and descriptors of each row (rule R65). -/
def RowId.row : RowId → Row
  | .f01 => ⟨.mov, [.literal 6 0b100010, .field .d 1, .field .w 1, .field .mod 2, .field .reg 3, .field .rm 3]⟩
  | .f02 => ⟨.mov, [.literal 7 0b1100011, .field .w 1, .field .mod 2, .literal 3 0b000, .field .rm 3,
      .implied .hasData 1, .implied .dataWFollowsW 1]⟩
  | .f03 => ⟨.mov, [.literal 4 0b1011, .field .w 1, .field .reg 3, .implied .hasData 1,
      .implied .dataWFollowsW 1, .implied .d 1]⟩
  | .f04 => ⟨.mov, [.literal 7 0b1010000, .field .w 1, .implied .mod 0, .implied .reg 0, .implied .rm 6,
      .implied .d 1]⟩
  | .f05 => ⟨.mov, [.literal 7 0b1010001, .field .w 1, .implied .mod 0, .implied .reg 0, .implied .rm 6,
      .implied .d 0]⟩
  | .f06 => ⟨.mov, [.literal 8 0b10001110, .field .mod 2, .literal 1 0b0, .field .sr 2, .field .rm 3,
      .implied .w 1, .implied .d 1]⟩
  | .f07 => ⟨.mov, [.literal 8 0b10001100, .field .mod 2, .literal 1 0b0, .field .sr 2, .field .rm 3,
      .implied .w 1, .implied .d 0]⟩
  | .f08 => ⟨.push, [.literal 8 0b11111111, .field .mod 2, .literal 3 0b110, .field .rm 3, .implied .w 1]⟩
  | .f09 => ⟨.push, [.literal 5 0b01010, .field .reg 3, .implied .w 1, .implied .d 1]⟩
  | .f10 => ⟨.push, [.literal 3 0b000, .field .sr 2, .literal 3 0b110, .implied .d 1]⟩
  | .f11 => ⟨.pop, [.literal 8 0b10001111, .field .mod 2, .literal 3 0b000, .field .rm 3, .implied .w 1]⟩
  | .f12 => ⟨.pop, [.literal 5 0b01011, .field .reg 3, .implied .w 1, .implied .d 1]⟩
  | .f13 => ⟨.pop, [.literal 3 0b000, .field .sr 2, .literal 3 0b111, .implied .d 1]⟩
  | .f14 => ⟨.xchg, [.literal 7 0b1000011, .field .w 1, .field .mod 2, .field .reg 3, .field .rm 3]⟩
  | .f15 => ⟨.xchg, [.literal 5 0b10010, .field .reg 3, .implied .mod 3, .implied .rm 0, .implied .w 1]⟩
  | .f16 => ⟨.inp, [.literal 7 0b1110010, .field .w 1, .implied .reg 0, .implied .d 1, .implied .hasData 1]⟩
  | .f17 => ⟨.inp, [.literal 7 0b1110110, .field .w 1, .implied .reg 0, .implied .mod 3, .implied .rm 2,
      .implied .rmAlwaysW 1, .implied .d 1]⟩
  | .f18 => ⟨.outp, [.literal 7 0b1110011, .field .w 1, .implied .reg 0, .implied .d 0, .implied .hasData 1]⟩
  | .f19 => ⟨.outp, [.literal 7 0b1110111, .field .w 1, .implied .reg 0, .implied .mod 3, .implied .rm 2,
      .implied .rmAlwaysW 1, .implied .d 0]⟩
  | .f20 => ⟨.xlat, [.literal 8 0b11010111]⟩
  | .f21 => ⟨.lea, [.literal 8 0b10001101, .field .mod 2, .field .reg 3, .field .rm 3, .implied .w 1, .implied .d 1]⟩
  | .f22 => ⟨.lds, [.literal 8 0b11000101, .field .mod 2, .field .reg 3, .field .rm 3, .implied .w 1, .implied .d 1]⟩
  | .f23 => ⟨.les, [.literal 8 0b11000100, .field .mod 2, .field .reg 3, .field .rm 3, .implied .w 1, .implied .d 1]⟩
  | .f24 => ⟨.lahf, [.literal 8 0b10011111]⟩
  | .f25 => ⟨.sahf, [.literal 8 0b10011110]⟩
  | .f26 => ⟨.pushf, [.literal 8 0b10011100]⟩
  | .f27 => ⟨.popf, [.literal 8 0b10011101]⟩
  | .f28 => ⟨.add, [.literal 6 0b000000, .field .d 1, .field .w 1, .field .mod 2, .field .reg 3, .field .rm 3]⟩
  | .f29 => ⟨.add, [.literal 6 0b100000, .field .s 1, .field .w 1, .field .mod 2, .literal 3 0b000,
      .field .rm 3, .implied .hasData 1, .implied .dataWFollowsW 1]⟩
  | .f30 => ⟨.add, [.literal 7 0b0000010, .field .w 1, .implied .reg 0, .implied .d 1, .implied .hasData 1,
      .implied .dataWFollowsW 1]⟩
  | .f31 => ⟨.adc, [.literal 6 0b000100, .field .d 1, .field .w 1, .field .mod 2, .field .reg 3, .field .rm 3]⟩
  | .f32 => ⟨.adc, [.literal 6 0b100000, .field .s 1, .field .w 1, .field .mod 2, .literal 3 0b010,
      .field .rm 3, .implied .hasData 1, .implied .dataWFollowsW 1]⟩
  | .f33 => ⟨.adc, [.literal 7 0b0001010, .field .w 1, .implied .reg 0, .implied .d 1, .implied .hasData 1,
      .implied .dataWFollowsW 1]⟩
  | .f34 => ⟨.inc, [.literal 7 0b1111111, .field .w 1, .field .mod 2, .literal 3 0b000, .field .rm 3]⟩
  | .f35 => ⟨.inc, [.literal 5 0b01000, .field .reg 3, .implied .w 1, .implied .d 1]⟩
  | .f36 => ⟨.aaa, [.literal 8 0b00110111]⟩
  | .f37 => ⟨.daa, [.literal 8 0b00100111]⟩
  | .f38 => ⟨.sub, [.literal 6 0b001010, .field .d 1, .field .w 1, .field .mod 2, .field .reg 3, .field .rm 3]⟩
  | .f39 => ⟨.sub, [.literal 6 0b100000, .field .s 1, .field .w 1, .field .mod 2, .literal 3 0b101,
      .field .rm 3, .implied .hasData 1, .implied .dataWFollowsW 1]⟩
  | .f40 => ⟨.sub, [.literal 7 0b0010110, .field .w 1, .implied .reg 0, .implied .d 1, .implied .hasData 1,
      .implied .dataWFollowsW 1]⟩
  | .f41 => ⟨.sbb, [.literal 6 0b000110, .field .d 1, .field .w 1, .field .mod 2, .field .reg 3, .field .rm 3]⟩
  | .f42 => ⟨.sbb, [.literal 6 0b100000, .field .s 1, .field .w 1, .field .mod 2, .literal 3 0b011,
      .field .rm 3, .implied .hasData 1, .implied .dataWFollowsW 1]⟩
  | .f43 => ⟨.sbb, [.literal 7 0b0001110, .field .w 1, .implied .reg 0, .implied .d 1, .implied .hasData 1,
      .implied .dataWFollowsW 1]⟩
  | .f44 => ⟨.dec, [.literal 7 0b1111111, .field .w 1, .field .mod 2, .literal 3 0b001, .field .rm 3]⟩
  | .f45 => ⟨.dec, [.literal 5 0b01001, .field .reg 3, .implied .w 1, .implied .d 1]⟩
  | .f46 => ⟨.neg, [.literal 7 0b1111011, .field .w 1, .field .mod 2, .literal 3 0b011, .field .rm 3]⟩
  | .f47 => ⟨.cmp, [.literal 6 0b001110, .field .d 1, .field .w 1, .field .mod 2, .field .reg 3, .field .rm 3]⟩
  | .f48 => ⟨.cmp, [.literal 6 0b100000, .field .s 1, .field .w 1, .field .mod 2, .literal 3 0b111,
      .field .rm 3, .implied .hasData 1, .implied .dataWFollowsW 1]⟩
  | .f49 => ⟨.cmp, [.literal 7 0b0011110, .field .w 1, .implied .reg 0, .implied .d 1, .implied .hasData 1,
      .implied .dataWFollowsW 1]⟩
  | .f50 => ⟨.aas, [.literal 8 0b00111111]⟩
  | .f51 => ⟨.das, [.literal 8 0b00101111]⟩
  | .f52 => ⟨.mul, [.literal 7 0b1111011, .field .w 1, .field .mod 2, .literal 3 0b100, .field .rm 3]⟩
  | .f53 => ⟨.imul, [.literal 7 0b1111011, .field .w 1, .field .mod 2, .literal 3 0b101, .field .rm 3]⟩
  | .f54 => ⟨.aam, [.literal 8 0b11010100, .literal 8 0b00001010]⟩
  | .f55 => ⟨.div, [.literal 7 0b1111011, .field .w 1, .field .mod 2, .literal 3 0b110, .field .rm 3]⟩
  | .f56 => ⟨.idiv, [.literal 7 0b1111011, .field .w 1, .field .mod 2, .literal 3 0b111, .field .rm 3]⟩
  | .f57 => ⟨.aad, [.literal 8 0b11010101, .literal 8 0b00001010]⟩
  | .f58 => ⟨.cbw, [.literal 8 0b10011000]⟩
  | .f59 => ⟨.cwd, [.literal 8 0b10011001]⟩

/-- `REF_TABLE` (rule R65). -/
def refTable : List Row := RowId.all.map RowId.row

/-- The parameters of this hardware (00_scope.md rule R8). -/
def refParams : Params where
  inputCapacity := Config.inputCapacity
  maxFields := Config.maxFields
  formatTable := refTable
  immEq := .byteTruncated
  diagText := Config.diagText

/-! ### The opcode map -/

/-- The opcode map of rule R67, line by line: the rows that can match first bytes `lo` to `hi`; no rows means
`NOMATCH`. -/
def opcodeMap : List (Nat × Nat × List RowId) :=
  [(0x00, 0x03, [.f28]), (0x04, 0x05, [.f30]), (0x06, 0x06, [.f10]), (0x07, 0x07, [.f13]), (0x08, 0x0D, []),
   (0x0E, 0x0E, [.f10]), (0x0F, 0x0F, [.f13]), (0x10, 0x13, [.f31]), (0x14, 0x15, [.f33]),
   (0x16, 0x16, [.f10]), (0x17, 0x17, [.f13]), (0x18, 0x1B, [.f41]), (0x1C, 0x1D, [.f43]),
   (0x1E, 0x1E, [.f10]), (0x1F, 0x1F, [.f13]), (0x20, 0x26, []), (0x27, 0x27, [.f37]), (0x28, 0x2B, [.f38]),
   (0x2C, 0x2D, [.f40]), (0x2E, 0x2E, []),
   (0x2F, 0x2F, [.f51]), (0x30, 0x36, []), (0x37, 0x37, [.f36]), (0x38, 0x3B, [.f47]), (0x3C, 0x3D, [.f49]),
   (0x3E, 0x3E, []), (0x3F, 0x3F, [.f50]), (0x40, 0x47, [.f35]), (0x48, 0x4F, [.f45]), (0x50, 0x57, [.f09]),
   (0x58, 0x5F, [.f12]), (0x60, 0x7F, []), (0x80, 0x83, [.f29, .f32, .f39, .f42, .f48]), (0x84, 0x85, []),
   (0x86, 0x87, [.f14]), (0x88, 0x8B, [.f01]), (0x8C, 0x8C, [.f07]), (0x8D, 0x8D, [.f21]),
   (0x8E, 0x8E, [.f06]), (0x8F, 0x8F, [.f11]),
   (0x90, 0x97, [.f15]), (0x98, 0x98, [.f58]), (0x99, 0x99, [.f59]), (0x9A, 0x9B, []), (0x9C, 0x9C, [.f26]),
   (0x9D, 0x9D, [.f27]), (0x9E, 0x9E, [.f25]), (0x9F, 0x9F, [.f24]), (0xA0, 0xA1, [.f04]),
   (0xA2, 0xA3, [.f05]), (0xA4, 0xAF, []), (0xB0, 0xBF, [.f03]), (0xC0, 0xC3, []), (0xC4, 0xC4, [.f23]),
   (0xC5, 0xC5, [.f22]), (0xC6, 0xC7, [.f02]), (0xC8, 0xD3, []), (0xD4, 0xD4, [.f54]), (0xD5, 0xD5, [.f57]),
   (0xD6, 0xD6, []),
   (0xD7, 0xD7, [.f20]), (0xD8, 0xE3, []), (0xE4, 0xE5, [.f16]), (0xE6, 0xE7, [.f18]), (0xE8, 0xEB, []),
   (0xEC, 0xED, [.f17]), (0xEE, 0xEF, [.f19]), (0xF0, 0xF5, []),
   (0xF6, 0xF7, [.f46, .f52, .f53, .f55, .f56]), (0xF8, 0xFD, []), (0xFE, 0xFE, [.f34, .f44]),
   (0xFF, 0xFF, [.f08, .f34, .f44])]

/-- The rows rule R67's map gives for a first byte. -/
def opcodeMapRows (b : Byte) : List RowId :=
  match opcodeMap.find? fun e => decide (e.1 ≤ b.toNat) && decide (b.toNat ≤ e.2.1) with
  | some e => e.2.2
  | none => []

/-! ### The opcode table's masks -/

/-- A row of spec/opcode_table.json as a mask and the bits it must leave: over its one descriptor byte, or over its two
read as one number with the first byte on top. -/
structure OpcodeMask where
  bytes : Nat
  mask  : Nat
  bits  : Nat
  deriving DecidableEq, Repr

/-- `descriptor_bytes`, `mask` and `match` of each row of spec/opcode_table.json. -/
def RowId.opcodeMask : RowId → OpcodeMask
  | .f01 => ⟨2, 0xFC00, 0x8800⟩
  | .f02 => ⟨2, 0xFE38, 0xC600⟩
  | .f03 => ⟨1, 0xF0, 0xB0⟩
  | .f04 => ⟨1, 0xFE, 0xA0⟩
  | .f05 => ⟨1, 0xFE, 0xA2⟩
  | .f06 => ⟨2, 0xFF20, 0x8E00⟩
  | .f07 => ⟨2, 0xFF20, 0x8C00⟩
  | .f08 => ⟨2, 0xFF38, 0xFF30⟩
  | .f09 => ⟨1, 0xF8, 0x50⟩
  | .f10 => ⟨1, 0xE7, 0x06⟩
  | .f11 => ⟨2, 0xFF38, 0x8F00⟩
  | .f12 => ⟨1, 0xF8, 0x58⟩
  | .f13 => ⟨1, 0xE7, 0x07⟩
  | .f14 => ⟨2, 0xFE00, 0x8600⟩
  | .f15 => ⟨1, 0xF8, 0x90⟩
  | .f16 => ⟨1, 0xFE, 0xE4⟩
  | .f17 => ⟨1, 0xFE, 0xEC⟩
  | .f18 => ⟨1, 0xFE, 0xE6⟩
  | .f19 => ⟨1, 0xFE, 0xEE⟩
  | .f20 => ⟨1, 0xFF, 0xD7⟩
  | .f21 => ⟨2, 0xFF00, 0x8D00⟩
  | .f22 => ⟨2, 0xFF00, 0xC500⟩
  | .f23 => ⟨2, 0xFF00, 0xC400⟩
  | .f24 => ⟨1, 0xFF, 0x9F⟩
  | .f25 => ⟨1, 0xFF, 0x9E⟩
  | .f26 => ⟨1, 0xFF, 0x9C⟩
  | .f27 => ⟨1, 0xFF, 0x9D⟩
  | .f28 => ⟨2, 0xFC00, 0x0000⟩
  | .f29 => ⟨2, 0xFC38, 0x8000⟩
  | .f30 => ⟨1, 0xFE, 0x04⟩
  | .f31 => ⟨2, 0xFC00, 0x1000⟩
  | .f32 => ⟨2, 0xFC38, 0x8010⟩
  | .f33 => ⟨1, 0xFE, 0x14⟩
  | .f34 => ⟨2, 0xFE38, 0xFE00⟩
  | .f35 => ⟨1, 0xF8, 0x40⟩
  | .f36 => ⟨1, 0xFF, 0x37⟩
  | .f37 => ⟨1, 0xFF, 0x27⟩
  | .f38 => ⟨2, 0xFC00, 0x2800⟩
  | .f39 => ⟨2, 0xFC38, 0x8028⟩
  | .f40 => ⟨1, 0xFE, 0x2C⟩
  | .f41 => ⟨2, 0xFC00, 0x1800⟩
  | .f42 => ⟨2, 0xFC38, 0x8018⟩
  | .f43 => ⟨1, 0xFE, 0x1C⟩
  | .f44 => ⟨2, 0xFE38, 0xFE08⟩
  | .f45 => ⟨1, 0xF8, 0x48⟩
  | .f46 => ⟨2, 0xFE38, 0xF618⟩
  | .f47 => ⟨2, 0xFC00, 0x3800⟩
  | .f48 => ⟨2, 0xFC38, 0x8038⟩
  | .f49 => ⟨1, 0xFE, 0x3C⟩
  | .f50 => ⟨1, 0xFF, 0x3F⟩
  | .f51 => ⟨1, 0xFF, 0x2F⟩
  | .f52 => ⟨2, 0xFE38, 0xF620⟩
  | .f53 => ⟨2, 0xFE38, 0xF628⟩
  | .f54 => ⟨2, 0xFFFF, 0xD40A⟩
  | .f55 => ⟨2, 0xFE38, 0xF630⟩
  | .f56 => ⟨2, 0xFE38, 0xF638⟩
  | .f57 => ⟨2, 0xFFFF, 0xD50A⟩
  | .f58 => ⟨1, 0xFF, 0x98⟩
  | .f59 => ⟨1, 0xFF, 0x99⟩

/-- Whether a row's literal bits of its first byte stand in this byte. -/
def OpcodeMask.firstFits (m : OpcodeMask) (first : Byte) : Bool :=
  if m.bytes = 1 then first.toNat &&& m.mask == m.bits else first.toNat &&& m.mask / 256 == m.bits / 256

/-- Whether the literal bits of a row of two descriptor bytes stand in these bytes. -/
def OpcodeMask.fits (m : OpcodeMask) (first second : Byte) : Bool :=
  (first.toNat * 256 + second.toNat) &&& m.mask == m.bits

end Sys2Proof
end

