-- ==== Sys2Proof/Machine/Engine.lean ====
section
/-! DEFINITION. Reading the input buffer (20_memory.md rules R29 to R31) and the bit-field extraction engine EXTRACT
(41_extraction_engine.md rules R88 to R98). Nothing here writes state: the engine's registers (10_state.md rule R22) are
the fields of `Engine`, made anew at each attempt. -/

namespace Sys2Proof

/-! ### Byte helpers -/

/-- `zext_16(b)` (00_scope.md rule R10). -/
def zext16 (b : Byte) : Word := b.zeroExtend 16

/-- `sext_16(b)` (00_scope.md rule R10). -/
def sext16 (b : Byte) : Word := b.signExtend 16

/-- Two consecutive bytes as a 16-bit value, the one at the lower offset the low-order byte (20_memory.md rule R30). -/
def wordOfBytes (first second : Byte) : Word := second ++ first

/-- The low-order byte of a 16-bit value, the one at the lower offset (20_memory.md rule R30). -/
def lowByte (v : Word) : Byte := v.setWidth 8

/-- The high-order byte of a 16-bit value, the one at the higher offset (20_memory.md rule R30). -/
def highByte (v : Word) : Byte := v.extractLsb' 8 8

/-! ### Attempts and reads -/

/-- What the buffer answers for one offset. -/
inductive Fetch where
  /-- The offset is below `LEN` and holds this byte. -/
  | byte (b : Byte)
  /-- The offset is at or above `LEN` (20_memory.md rule R29). -/
  | pastEnd
  /-- The offset is below `LEN` and `BUF` holds no value there: no state the FTD reaches has such an offset (assumption
  2). -/
  | noValue
  deriving DecidableEq, Repr

/-- The buffer as the engine sees it: what stands at each offset. -/
abbrev Reader := Nat → Fetch

/-- The outcomes of an attempt, or of a part of one (42_decoder.md rule R99). -/
inductive Attempt (α : Type) where
  /-- It succeeded with this result. -/
  | matched (result : α)
  /-- A literal did not match: `NOMATCH`. -/
  | noMatch
  /-- `TRUNCATED(a)`: it needed the byte at offset `a`, at or above `LEN`. -/
  | truncated (a : Nat)
  /-- It needed the byte at offset `a`, below `LEN`, where `BUF` holds no value (assumption 2). -/
  | noValue (a : Nat)
  deriving DecidableEq, Repr

/-- Go on with the result of an attempt that succeeded; any other outcome ends the whole attempt. -/
def Attempt.andThen {α β : Type} (x : Attempt α) (f : α → Attempt β) : Attempt β :=
  match x with
  | .matched a => f a
  | .noMatch => .noMatch
  | .truncated a => .truncated a
  | .noValue a => .noValue a

/-- `MemRead(a, 1)` (20_memory.md rule R29). -/
def memRead1 (rd : Reader) (a : Nat) : Attempt Byte :=
  match rd a with
  | .byte b => .matched b
  | .pastEnd => .truncated a
  | .noValue => .noValue a

/-- `MemRead(a, 2)`: little-endian, the lower offset checked first (20_memory.md rule R30). -/
def memRead2 (rd : Reader) (a : Nat) : Attempt Word :=
  (memRead1 rd a).andThen fun first =>
    (memRead1 rd (a + 1)).andThen fun second => .matched (wordOfBytes first second)

/-- The reader of a list of bytes that begins at offset 0 and ends the input. -/
def listReader (bytes : List Byte) : Reader := fun a =>
  match bytes[a]? with
  | some b => .byte b
  | none => .pastEnd

/-! ### The field map -/

/-- The field map: `FP[k]` is whether a kind has a value, `FV[k]` the value, of at most 8 bits (10_state.md rule
R22). -/
abbrev FieldMap := FieldKind → Option Byte

/-- The map at the start of an attempt: no kind present (41_extraction_engine.md rule R89). -/
def FieldMap.blank : FieldMap := fun _ => none

/-- `FV[k] <- v, FP[k] <- true`: a later value overwrites an earlier one (41_extraction_engine.md rule R95). -/
def FieldMap.put (m : FieldMap) (k : FieldKind) (v : Byte) : FieldMap := fun j => if j = k then some v else m j

/-! ### EXTRACT -/

/-- The engine's registers (10_state.md rule R22): `E_POS`, `E_BYTE`, `E_BITS` and the field map. `E_START` is the
attempt's own argument: nothing but the rewind reads it, and a failed attempt returns no position at all. -/
structure Engine where
  pos  : Nat
  byte : Byte
  bits : Nat
  map  : FieldMap

/-- The engine at the start of an attempt (41_extraction_engine.md rule R89); no bit of `E_BYTE` is left, so its value
is never read. -/
def Engine.start (cur : Nat) : Engine := ⟨cur, 0, 0, FieldMap.blank⟩

/-- Fetch the next stream byte if the current one is used up (41_extraction_engine.md rule R91). -/
def Engine.fetch (rd : Reader) (e : Engine) : Attempt Engine :=
  if e.bits = 0 then
    (memRead1 rd e.pos).andThen fun b => .matched { e with byte := b, pos := e.pos + 1, bits := 8 }
  else .matched e

/-- The top `n` remaining bits of the current byte (41_extraction_engine.md rule R92). -/
def Engine.topBits (e : Engine) (n : Nat) : Byte :=
  (e.byte >>> (e.bits - n)) &&& BitVec.ofNat 8 (2 ^ n - 1)

/-- Mark `n` bits consumed (41_extraction_engine.md rule R92). -/
def Engine.consume (e : Engine) (n : Nat) : Engine := { e with bits := e.bits - n }

/-- Check a literal (41_extraction_engine.md rule R94) or store a field (rule R95). -/
def Engine.accept (e : Engine) (d : Descriptor) (v : Byte) : Attempt Engine :=
  if d.kind = .lit then
    if v.toNat = d.value then .matched { e with map := e.map.put .lit 0 } else .noMatch
  else .matched { e with map := e.map.put d.kind v }

/-- Process one descriptor (41_extraction_engine.md rule R90): one with `n = 0` never touches the stream (rule R93). -/
def Engine.descriptor (rd : Reader) (e : Engine) (d : Descriptor) : Attempt Engine :=
  if d.n = 0 then e.accept d (BitVec.ofNat 8 d.value)
  else (e.fetch rd).andThen fun f => (f.consume d.n).accept d (f.topBits d.n)

/-- Process descriptors left to right (41_extraction_engine.md rule R90). -/
def Engine.descriptors (rd : Reader) : List Descriptor → Engine → Attempt Engine
  | [], e => .matched e
  | d :: ds, e => (e.descriptor rd d).andThen (Engine.descriptors rd ds)

/-- EXTRACT(`row`) at `CUR`: the field map and the offset after the row's descriptor bytes (41_extraction_engine.md
rules R88 and R96). -/
def extract (rd : Reader) (cur : Nat) (row : Row) : Attempt (FieldMap × Nat) :=
  (Engine.descriptors rd row.fields (Engine.start cur)).andThen fun e => .matched (e.map, e.pos)

end Sys2Proof
end

