-- ==== Sys2Proof/Machine/Flags.lean ====
section
/-! DEFINITION. The flags of the FTD. It has no condition codes (10_state.md rule R25): its only flags are the presence
flags of the field map and the row flags `HAS_DATA`, `DATA_W_FOLLOWS_W` and `RM_ALWAYS_W`, and here is everything TRY
computes from them: steps 2 to 5 (42_decoder.md rules R101 to R104). -/

namespace Sys2Proof

/-- `k_val`: the value of a kind, 0 where the map does not have it (42_decoder.md rule R101). -/
def FieldMap.val (m : FieldMap) (k : FieldKind) : Byte := (m k).getD 0

/-- `FP[k]` (10_state.md rule R22). -/
def FieldMap.present (m : FieldMap) (k : FieldKind) : Bool := (m k).isSome

/-- A flag kind is set iff it is present with a value that is not 0 (42_decoder.md rule R101, decision D13). -/
def FieldMap.flag (m : FieldMap) (k : FieldKind) : Bool := m.present k && m.val k != 0

/-- `HAS_DATA` (42_decoder.md rule R101). -/
def FieldMap.hasData (m : FieldMap) : Bool := m.flag .hasData

/-- `RMW` (42_decoder.md rule R101). -/
def FieldMap.rmAlwaysWide (m : FieldMap) : Bool := m.flag .rmAlwaysW

/-- `w_val == 1`. -/
def FieldMap.wide (m : FieldMap) : Bool := m.val .w == 1

/-- `d_val == 1`. -/
def FieldMap.regFirst (m : FieldMap) : Bool := m.val .d == 1

/-- `s_val == 1`. -/
def FieldMap.signExtends (m : FieldMap) : Bool := m.val .s == 1

/-- Step 3, direct addressing: `MOD = 00` and `RM = 110` (42_decoder.md rule R102). -/
def FieldMap.direct (m : FieldMap) : Bool := m.val .mod == 0 && m.val .rm == 6

/-- Step 4, whether a displacement follows (42_decoder.md rule R103). -/
def FieldMap.hasDisp (m : FieldMap) : Bool := m.val .mod == 1 || m.val .mod == 2 || m.direct

/-- Step 4, whether the displacement is two bytes (42_decoder.md rule R103). -/
def FieldMap.dispWide (m : FieldMap) : Bool := m.val .mod == 2 || m.direct

/-- Step 5, whether immediate data are two bytes (42_decoder.md rule R104). -/
def FieldMap.dataWide (m : FieldMap) : Bool :=
  m.flag .dataWFollowsW && m.val .w == 1 && m.val .s == 0

end Sys2Proof
end

