-- ==== Sys2Proof/Machine/Parse.lean ====
section
/-! DEFINITION. Steps 1 to 6 of TRY (42_decoder.md rules R100 to R107): run the engine, size the displacement and the
immediate, and read them. What is read stands in `Parsed`, the decoder's scratch registers (10_state.md rule R24). -/

namespace Sys2Proof

/-- The decoder's registers after step 6 (10_state.md rule R24): the field map, `DISP`, `DATA`, `DATA_WIDE`, and the
offset just past the last byte read. -/
structure Parsed where
  map      : FieldMap
  disp     : Word
  data     : Word
  dataWide : Bool
  stop     : Nat

/-- `ReadDisp(p)` (42_decoder.md rule R106). -/
def readDisp (rd : Reader) (m : FieldMap) (p : Nat) : Attempt (Word × Nat) :=
  if m.dispWide then (memRead2 rd p).andThen fun v => .matched (v, p + 2)
  else (memRead1 rd p).andThen fun b => .matched (sext16 b, p + 1)

/-- `ReadData(p)` (42_decoder.md rule R107): a narrow datum is extended per `S` (decision D11). -/
def readData (rd : Reader) (m : FieldMap) (p : Nat) : Attempt (Word × Bool × Nat) :=
  if m.dataWide then (memRead2 rd p).andThen fun v => .matched (v, true, p + 2)
  else (memRead1 rd p).andThen fun b =>
    .matched (if m.signExtends then sext16 b else zext16 b, false, p + 1)

/-- Step 6 (42_decoder.md rule R105): the displacement where there is one, then the data where there are any. -/
def readTrailing (rd : Reader) (m : FieldMap) (p : Nat) : Attempt Parsed :=
  (if m.hasDisp then readDisp rd m p else .matched (0, p)).andThen fun (disp, q) =>
    (if m.hasData then readData rd m q else .matched (0, false, q)).andThen fun (data, wide, stop) =>
      .matched ⟨m, disp, data, wide, stop⟩

/-- Steps 1 to 6 of TRY for a row at `CUR` (42_decoder.md rules R100 to R107). -/
def parse (rd : Reader) (cur : Nat) (row : Row) : Attempt Parsed :=
  (extract rd cur row).andThen fun (m, p) => readTrailing rd m p

/-- The first row, in order, whose attempt does not end in `NOMATCH` decides (43_stream_driver.md rule R123,
60_exceptions.md rule R208). -/
def firstAttempt {ρ α : Type} (attempt : ρ → Attempt α) : List ρ → Attempt α
  | [] => .noMatch
  | r :: rs =>
    match attempt r with
    | .matched a => .matched a
    | .noMatch => firstAttempt attempt rs
    | .truncated a => .truncated a
    | .noValue a => .noValue a

end Sys2Proof
end

