-- ==== Sys2Proof/Syntax.lean ====
section
/-! DEFINITION. The instructions the FTD decodes with `REF_TABLE`: one constructor per row F01 to F59 of 30_encoding.md
rule R65 (spec/opcode_table.json), carrying every bit of the row's encoding that the row does not fix. -/

namespace Sys2Proof

/-- The r/m operand as it is encoded: `MOD`, `RM` and the displacement bytes (42_decoder.md rules R102, R103, R106 and
R110), one constructor per length and kind of operand. -/
inductive RmForm where
  /-- `MOD = 11`: the register `RM`. -/
  | reg (rm : Reg3)
  /-- `MOD = 00`, `RM = 110`: the direct address that follows in two bytes. -/
  | direct (addr : Word)
  /-- `MOD = 00`, `RM ≠ 110`: base/index expression `RM`, no displacement. -/
  | mem0 (rm : Reg3)
  /-- `MOD = 01`: base/index expression `RM`, one displacement byte. -/
  | mem8 (rm : Reg3) (disp : Byte)
  /-- `MOD = 10`: base/index expression `RM`, two displacement bytes. -/
  | mem16 (rm : Reg3) (disp : Word)
  deriving DecidableEq, Repr

/-- Trailing immediate data as it is encoded (42_decoder.md rule R107): one byte or two. -/
inductive ImmData where
  | byte (b : Byte)
  | word (v : Word)
  deriving DecidableEq, Repr

/-- The instructions, one constructor per row of the reference table, in table order. -/
inductive Instr where
  /-- F01 `100010dw mmrrrxxx`, rule R145. -/
  | movRmReg (d w : Bool) (reg : Reg3) (rm : RmForm)
  /-- F02 `1100011w mm000xxx`, rule R146. -/
  | movRmImm (w : Bool) (rm : RmForm) (data : ImmData)
  /-- F03 `1011wrrr`, rule R147. -/
  | movRegImm (w : Bool) (reg : Reg3) (data : ImmData)
  /-- F04 `1010000w`, rule R148. -/
  | movAccMem (w : Bool) (addr : Word)
  /-- F05 `1010001w`, rule R149. -/
  | movMemAcc (w : Bool) (addr : Word)
  /-- F06 `10001110 mm0ggxxx`, rule R150. -/
  | movSegRm (sr : Seg2) (rm : RmForm)
  /-- F07 `10001100 mm0ggxxx`, rule R151. -/
  | movRmSeg (sr : Seg2) (rm : RmForm)
  /-- F08 `11111111 mm110xxx`, rule R152. -/
  | pushRm (rm : RmForm)
  /-- F09 `01010rrr`, rule R153. -/
  | pushReg (reg : Reg3)
  /-- F10 `000gg110`, rule R154. -/
  | pushSeg (sr : Seg2)
  /-- F11 `10001111 mm000xxx`, rule R155. -/
  | popRm (rm : RmForm)
  /-- F12 `01011rrr`, rule R156. -/
  | popReg (reg : Reg3)
  /-- F13 `000gg111`, rule R157. -/
  | popSeg (sr : Seg2)
  /-- F14 `1000011w mmrrrxxx`, rule R158. -/
  | xchgRmReg (w : Bool) (reg : Reg3) (rm : RmForm)
  /-- F15 `10010rrr`, rule R159. -/
  | xchgAccReg (reg : Reg3)
  /-- F16 `1110010w`, rule R160. -/
  | inFixed (w : Bool) (port : Byte)
  /-- F17 `1110110w`, rule R161. -/
  | inDx (w : Bool)
  /-- F18 `1110011w`, rule R162. -/
  | outFixed (w : Bool) (port : Byte)
  /-- F19 `1110111w`, rule R163. -/
  | outDx (w : Bool)
  /-- F20 `11010111`, rule R164. -/
  | xlat
  /-- F21 `10001101 mmrrrxxx`, rule R165. -/
  | lea (reg : Reg3) (rm : RmForm)
  /-- F22 `11000101 mmrrrxxx`, rule R166. -/
  | lds (reg : Reg3) (rm : RmForm)
  /-- F23 `11000100 mmrrrxxx`, rule R167. -/
  | les (reg : Reg3) (rm : RmForm)
  /-- F24 `10011111`, rule R168. -/
  | lahf
  /-- F25 `10011110`, rule R169. -/
  | sahf
  /-- F26 `10011100`, rule R170. -/
  | pushf
  /-- F27 `10011101`, rule R171. -/
  | popf
  /-- F28 `000000dw mmrrrxxx`, rule R172. -/
  | addRmReg (d w : Bool) (reg : Reg3) (rm : RmForm)
  /-- F29 `100000sw mm000xxx`, rule R173. -/
  | addRmImm (s w : Bool) (rm : RmForm) (data : ImmData)
  /-- F30 `0000010w`, rule R174. -/
  | addAccImm (w : Bool) (data : ImmData)
  /-- F31 `000100dw mmrrrxxx`, rule R175. -/
  | adcRmReg (d w : Bool) (reg : Reg3) (rm : RmForm)
  /-- F32 `100000sw mm010xxx`, rule R176. -/
  | adcRmImm (s w : Bool) (rm : RmForm) (data : ImmData)
  /-- F33 `0001010w`, rule R177. -/
  | adcAccImm (w : Bool) (data : ImmData)
  /-- F34 `1111111w mm000xxx`, rule R178. -/
  | incRm (w : Bool) (rm : RmForm)
  /-- F35 `01000rrr`, rule R179. -/
  | incReg (reg : Reg3)
  /-- F36 `00110111`, rule R180. -/
  | aaa
  /-- F37 `00100111`, rule R181. -/
  | daa
  /-- F38 `001010dw mmrrrxxx`, rule R182. -/
  | subRmReg (d w : Bool) (reg : Reg3) (rm : RmForm)
  /-- F39 `100000sw mm101xxx`, rule R183. -/
  | subRmImm (s w : Bool) (rm : RmForm) (data : ImmData)
  /-- F40 `0010110w`, rule R184. -/
  | subAccImm (w : Bool) (data : ImmData)
  /-- F41 `000110dw mmrrrxxx`, rule R185. -/
  | sbbRmReg (d w : Bool) (reg : Reg3) (rm : RmForm)
  /-- F42 `100000sw mm011xxx`, rule R186. -/
  | sbbRmImm (s w : Bool) (rm : RmForm) (data : ImmData)
  /-- F43 `0001110w`, rule R187. -/
  | sbbAccImm (w : Bool) (data : ImmData)
  /-- F44 `1111111w mm001xxx`, rule R188. -/
  | decRm (w : Bool) (rm : RmForm)
  /-- F45 `01001rrr`, rule R189. -/
  | decReg (reg : Reg3)
  /-- F46 `1111011w mm011xxx`, rule R190. -/
  | negRm (w : Bool) (rm : RmForm)
  /-- F47 `001110dw mmrrrxxx`, rule R191. -/
  | cmpRmReg (d w : Bool) (reg : Reg3) (rm : RmForm)
  /-- F48 `100000sw mm111xxx`, rule R192. -/
  | cmpRmImm (s w : Bool) (rm : RmForm) (data : ImmData)
  /-- F49 `0011110w`, rule R193. -/
  | cmpAccImm (w : Bool) (data : ImmData)
  /-- F50 `00111111`, rule R194. -/
  | aas
  /-- F51 `00101111`, rule R195. -/
  | das
  /-- F52 `1111011w mm100xxx`, rule R196. -/
  | mulRm (w : Bool) (rm : RmForm)
  /-- F53 `1111011w mm101xxx`, rule R197. -/
  | imulRm (w : Bool) (rm : RmForm)
  /-- F54 `11010100 00001010`, rule R198. -/
  | aam
  /-- F55 `1111011w mm110xxx`, rule R199. -/
  | divRm (w : Bool) (rm : RmForm)
  /-- F56 `1111011w mm111xxx`, rule R200. -/
  | idivRm (w : Bool) (rm : RmForm)
  /-- F57 `11010101 00001010`, rule R201. -/
  | aad
  /-- F58 `10011000`, rule R202. -/
  | cbw
  /-- F59 `10011001`, rule R203. -/
  | cwd
  deriving DecidableEq, Repr

end Sys2Proof
end

