-- ==== Sys2Proof/WellFormed.lean ====
section
/-! DEFINITION. Which terms of `Instr` are encodings of the reference table: the two checks a row's fields obey, that
`MOD = 00` with `RM = 110` is the direct form (42_decoder.md rule R102) and that the immediate has the width rule R104
of 42_decoder.md gives it. -/

namespace Sys2Proof

/-- `MOD = 00` with `RM = 110` is not a base/index form: it is the direct address (42_decoder.md rule R102). -/
def RmForm.wf : RmForm → Bool
  | .reg _ => true
  | .direct _ => true
  | .mem0 rm => rm != 6#3
  | .mem8 _ _ => true
  | .mem16 _ _ => true

/-- Whether the immediate is two bytes long (42_decoder.md rule R104). -/
def ImmData.wide : ImmData → Bool
  | .byte _ => false
  | .word _ => true

/-- The immediate has the width the row asks for. -/
def ImmData.fits (wide : Bool) (d : ImmData) : Bool := d.wide == wide

/-- The check on an instruction: its r/m form is one an encoding has, and its data has the width that `W` (and `S`,
where the row has it) gives it. -/
def Instr.wf : Instr → Bool
  | .movRmReg _ _ _ rm => rm.wf
  | .movRmImm w rm data => rm.wf && data.fits w
  | .movRegImm w _ data => data.fits w
  | .movAccMem _ _ => true
  | .movMemAcc _ _ => true
  | .movSegRm _ rm => rm.wf
  | .movRmSeg _ rm => rm.wf
  | .pushRm rm => rm.wf
  | .pushReg _ => true
  | .pushSeg _ => true
  | .popRm rm => rm.wf
  | .popReg _ => true
  | .popSeg _ => true
  | .xchgRmReg _ _ rm => rm.wf
  | .xchgAccReg _ => true
  | .inFixed _ _ => true
  | .inDx _ => true
  | .outFixed _ _ => true
  | .outDx _ => true
  | .xlat => true
  | .lea _ rm => rm.wf
  | .lds _ rm => rm.wf
  | .les _ rm => rm.wf
  | .lahf => true
  | .sahf => true
  | .pushf => true
  | .popf => true
  | .addRmReg _ _ _ rm => rm.wf
  | .addRmImm s w rm data => rm.wf && data.fits (w && !s)
  | .addAccImm w data => data.fits w
  | .adcRmReg _ _ _ rm => rm.wf
  | .adcRmImm s w rm data => rm.wf && data.fits (w && !s)
  | .adcAccImm w data => data.fits w
  | .incRm _ rm => rm.wf
  | .incReg _ => true
  | .aaa => true
  | .daa => true
  | .subRmReg _ _ _ rm => rm.wf
  | .subRmImm s w rm data => rm.wf && data.fits (w && !s)
  | .subAccImm w data => data.fits w
  | .sbbRmReg _ _ _ rm => rm.wf
  | .sbbRmImm s w rm data => rm.wf && data.fits (w && !s)
  | .sbbAccImm w data => data.fits w
  | .decRm _ rm => rm.wf
  | .decReg _ => true
  | .negRm _ rm => rm.wf
  | .cmpRmReg _ _ _ rm => rm.wf
  | .cmpRmImm s w rm data => rm.wf && data.fits (w && !s)
  | .cmpAccImm w data => data.fits w
  | .aas => true
  | .das => true
  | .mulRm _ rm => rm.wf
  | .imulRm _ rm => rm.wf
  | .aam => true
  | .divRm _ rm => rm.wf
  | .idivRm _ rm => rm.wf
  | .aad => true
  | .cbw => true
  | .cwd => true

end Sys2Proof
end

