-- ==== Sys2Proof/Decode.lean ====
section
/-! DEFINITION. Decoding bytes into instructions with `REF_TABLE`, total on any bytes, and the encoder, written from the
encoding patterns of 30_encoding.md rule R65 (letters: rule R66) and the order of the bytes after them (rule R61). The
rows are tried in table order (rule R56), each by the engine (41_extraction_engine.md) and by steps 1 to 6 of
42_decoder.md; bytes that are no instruction are rejected by name: `noMatch`, or `truncated a`. -/

namespace Sys2Proof

/-! ### From the decoder's registers to an instruction -/

/-- The `REG` field as three bits. -/
def Parsed.regField (p : Parsed) : Reg3 := (p.map.val .reg).setWidth 3

/-- The `SR` field as two bits. -/
def Parsed.segField (p : Parsed) : Seg2 := (p.map.val .sr).setWidth 2

/-- The r/m form that was read: `MOD`, `RM` and the displacement bytes (42_decoder.md rules R102, R103 and R106). -/
def Parsed.rmForm (p : Parsed) : RmForm :=
  let rm := (p.map.val .rm).setWidth 3
  if p.map.val .mod = 3 then .reg rm
  else if p.map.direct then .direct p.disp
  else if p.map.val .mod = 0 then .mem0 rm
  else if p.map.val .mod = 1 then .mem8 rm (lowByte p.disp)
  else .mem16 rm p.disp

/-- The immediate bytes that were read (42_decoder.md rule R107): a narrow datum is the low byte of `DATA`, whichever
way it was extended. -/
def Parsed.immData (p : Parsed) : ImmData := if p.dataWide then .word p.data else .byte (lowByte p.data)

/-- The instruction of a row, from the fields its descriptors and trailing bytes gave. -/
def assemble (r : RowId) (p : Parsed) : Instr :=
  match r with
  | .f01 => .movRmReg p.map.regFirst p.map.wide p.regField p.rmForm
  | .f02 => .movRmImm p.map.wide p.rmForm p.immData
  | .f03 => .movRegImm p.map.wide p.regField p.immData
  | .f04 => .movAccMem p.map.wide p.disp
  | .f05 => .movMemAcc p.map.wide p.disp
  | .f06 => .movSegRm p.segField p.rmForm
  | .f07 => .movRmSeg p.segField p.rmForm
  | .f08 => .pushRm p.rmForm
  | .f09 => .pushReg p.regField
  | .f10 => .pushSeg p.segField
  | .f11 => .popRm p.rmForm
  | .f12 => .popReg p.regField
  | .f13 => .popSeg p.segField
  | .f14 => .xchgRmReg p.map.wide p.regField p.rmForm
  | .f15 => .xchgAccReg p.regField
  | .f16 => .inFixed p.map.wide (lowByte p.data)
  | .f17 => .inDx p.map.wide
  | .f18 => .outFixed p.map.wide (lowByte p.data)
  | .f19 => .outDx p.map.wide
  | .f20 => .xlat
  | .f21 => .lea p.regField p.rmForm
  | .f22 => .lds p.regField p.rmForm
  | .f23 => .les p.regField p.rmForm
  | .f24 => .lahf
  | .f25 => .sahf
  | .f26 => .pushf
  | .f27 => .popf
  | .f28 => .addRmReg p.map.regFirst p.map.wide p.regField p.rmForm
  | .f29 => .addRmImm p.map.signExtends p.map.wide p.rmForm p.immData
  | .f30 => .addAccImm p.map.wide p.immData
  | .f31 => .adcRmReg p.map.regFirst p.map.wide p.regField p.rmForm
  | .f32 => .adcRmImm p.map.signExtends p.map.wide p.rmForm p.immData
  | .f33 => .adcAccImm p.map.wide p.immData
  | .f34 => .incRm p.map.wide p.rmForm
  | .f35 => .incReg p.regField
  | .f36 => .aaa
  | .f37 => .daa
  | .f38 => .subRmReg p.map.regFirst p.map.wide p.regField p.rmForm
  | .f39 => .subRmImm p.map.signExtends p.map.wide p.rmForm p.immData
  | .f40 => .subAccImm p.map.wide p.immData
  | .f41 => .sbbRmReg p.map.regFirst p.map.wide p.regField p.rmForm
  | .f42 => .sbbRmImm p.map.signExtends p.map.wide p.rmForm p.immData
  | .f43 => .sbbAccImm p.map.wide p.immData
  | .f44 => .decRm p.map.wide p.rmForm
  | .f45 => .decReg p.regField
  | .f46 => .negRm p.map.wide p.rmForm
  | .f47 => .cmpRmReg p.map.regFirst p.map.wide p.regField p.rmForm
  | .f48 => .cmpRmImm p.map.signExtends p.map.wide p.rmForm p.immData
  | .f49 => .cmpAccImm p.map.wide p.immData
  | .f50 => .aas
  | .f51 => .das
  | .f52 => .mulRm p.map.wide p.rmForm
  | .f53 => .imulRm p.map.wide p.rmForm
  | .f54 => .aam
  | .f55 => .divRm p.map.wide p.rmForm
  | .f56 => .idivRm p.map.wide p.rmForm
  | .f57 => .aad
  | .f58 => .cbw
  | .f59 => .cwd

/-- One row's attempt at `CUR`: its instruction and the offset after the last byte read. -/
def decodeRow (rd : Reader) (cur : Nat) (r : RowId) : Attempt (Instr × Nat) :=
  (parse rd cur r.row).andThen fun p => .matched (assemble r p, p.stop)

/-- The whole table's attempt at `CUR`, rows in order (43_stream_driver.md rule R123). -/
def decodeAt (rd : Reader) (cur : Nat) : Attempt (Instr × Nat) := firstAttempt (decodeRow rd cur) RowId.all

/-- Decoding the instruction a list of bytes begins with: the instruction and its length. -/
def decode (bytes : List Byte) : Attempt (Instr × Nat) := decodeAt (listReader bytes) 0

/-! ### The encoder -/

/-- The row of an instruction (rule R65). -/
def Instr.rowId : Instr → RowId
  | .movRmReg _ _ _ _ => .f01
  | .movRmImm _ _ _ => .f02
  | .movRegImm _ _ _ => .f03
  | .movAccMem _ _ => .f04
  | .movMemAcc _ _ => .f05
  | .movSegRm _ _ => .f06
  | .movRmSeg _ _ => .f07
  | .pushRm _ => .f08
  | .pushReg _ => .f09
  | .pushSeg _ => .f10
  | .popRm _ => .f11
  | .popReg _ => .f12
  | .popSeg _ => .f13
  | .xchgRmReg _ _ _ => .f14
  | .xchgAccReg _ => .f15
  | .inFixed _ _ => .f16
  | .inDx _ => .f17
  | .outFixed _ _ => .f18
  | .outDx _ => .f19
  | .xlat => .f20
  | .lea _ _ => .f21
  | .lds _ _ => .f22
  | .les _ _ => .f23
  | .lahf => .f24
  | .sahf => .f25
  | .pushf => .f26
  | .popf => .f27
  | .addRmReg _ _ _ _ => .f28
  | .addRmImm _ _ _ _ => .f29
  | .addAccImm _ _ => .f30
  | .adcRmReg _ _ _ _ => .f31
  | .adcRmImm _ _ _ _ => .f32
  | .adcAccImm _ _ => .f33
  | .incRm _ _ => .f34
  | .incReg _ => .f35
  | .aaa => .f36
  | .daa => .f37
  | .subRmReg _ _ _ _ => .f38
  | .subRmImm _ _ _ _ => .f39
  | .subAccImm _ _ => .f40
  | .sbbRmReg _ _ _ _ => .f41
  | .sbbRmImm _ _ _ _ => .f42
  | .sbbAccImm _ _ => .f43
  | .decRm _ _ => .f44
  | .decReg _ => .f45
  | .negRm _ _ => .f46
  | .cmpRmReg _ _ _ _ => .f47
  | .cmpRmImm _ _ _ _ => .f48
  | .cmpAccImm _ _ => .f49
  | .aas => .f50
  | .das => .f51
  | .mulRm _ _ => .f52
  | .imulRm _ _ => .f53
  | .aam => .f54
  | .divRm _ _ => .f55
  | .idivRm _ _ => .f56
  | .aad => .f57
  | .cbw => .f58
  | .cwd => .f59

/-- `MOD` of an r/m form (42_decoder.md rules R102, R103 and R110). -/
def RmForm.modBits : RmForm → BitVec 2
  | .reg _ => 0b11#2
  | .direct _ => 0b00#2
  | .mem0 _ => 0b00#2
  | .mem8 _ _ => 0b01#2
  | .mem16 _ _ => 0b10#2

/-- `RM` of an r/m form (42_decoder.md rules R102 and R110). -/
def RmForm.rmBits : RmForm → BitVec 3
  | .reg rm => rm
  | .direct _ => 0b110#3
  | .mem0 rm => rm
  | .mem8 rm _ => rm
  | .mem16 rm _ => rm

/-- A 16-bit value as two bytes, little-endian (20_memory.md rule R30). -/
def wordBytes (v : Word) : List Byte := [lowByte v, highByte v]

/-- The displacement bytes of an r/m form (42_decoder.md rule R106). -/
def RmForm.dispBytes : RmForm → List Byte
  | .reg _ => []
  | .direct addr => wordBytes addr
  | .mem0 _ => []
  | .mem8 _ disp => [disp]
  | .mem16 _ disp => wordBytes disp

/-- The immediate bytes (42_decoder.md rule R107). -/
def ImmData.bytes : ImmData → List Byte
  | .byte b => [b]
  | .word v => wordBytes v

/-- The length of the displacement (42_decoder.md rule R103). -/
def RmForm.dispLen : RmForm → Nat
  | .reg _ => 0
  | .direct _ => 2
  | .mem0 _ => 0
  | .mem8 _ _ => 1
  | .mem16 _ _ => 2

/-- The length of the immediate (42_decoder.md rule R104). -/
def ImmData.dataLen : ImmData → Nat
  | .byte _ => 1
  | .word _ => 2

/-- The bytes of an instruction: the row's pattern (30_encoding.md rule R65), then the displacement, then the data
(rule R61). -/
def encode : Instr → List Byte
  | .movRmReg d w reg rm =>
    [0b100010#6 ++ BitVec.ofBool d ++ BitVec.ofBool w, rm.modBits ++ reg ++ rm.rmBits] ++ rm.dispBytes
  | .movRmImm w rm data =>
    [0b1100011#7 ++ BitVec.ofBool w, rm.modBits ++ 0b000#3 ++ rm.rmBits] ++ rm.dispBytes ++ data.bytes
  | .movRegImm w reg data => [0b1011#4 ++ BitVec.ofBool w ++ reg] ++ data.bytes
  | .movAccMem w addr => [0b1010000#7 ++ BitVec.ofBool w] ++ wordBytes addr
  | .movMemAcc w addr => [0b1010001#7 ++ BitVec.ofBool w] ++ wordBytes addr
  | .movSegRm sr rm => [0b10001110#8, rm.modBits ++ 0b0#1 ++ sr ++ rm.rmBits] ++ rm.dispBytes
  | .movRmSeg sr rm => [0b10001100#8, rm.modBits ++ 0b0#1 ++ sr ++ rm.rmBits] ++ rm.dispBytes
  | .pushRm rm => [0b11111111#8, rm.modBits ++ 0b110#3 ++ rm.rmBits] ++ rm.dispBytes
  | .pushReg reg => [0b01010#5 ++ reg]
  | .pushSeg sr => [0b000#3 ++ sr ++ 0b110#3]
  | .popRm rm => [0b10001111#8, rm.modBits ++ 0b000#3 ++ rm.rmBits] ++ rm.dispBytes
  | .popReg reg => [0b01011#5 ++ reg]
  | .popSeg sr => [0b000#3 ++ sr ++ 0b111#3]
  | .xchgRmReg w reg rm => [0b1000011#7 ++ BitVec.ofBool w, rm.modBits ++ reg ++ rm.rmBits] ++ rm.dispBytes
  | .xchgAccReg reg => [0b10010#5 ++ reg]
  | .inFixed w port => [0b1110010#7 ++ BitVec.ofBool w] ++ [port]
  | .inDx w => [0b1110110#7 ++ BitVec.ofBool w]
  | .outFixed w port => [0b1110011#7 ++ BitVec.ofBool w] ++ [port]
  | .outDx w => [0b1110111#7 ++ BitVec.ofBool w]
  | .xlat => [0b11010111#8]
  | .lea reg rm => [0b10001101#8, rm.modBits ++ reg ++ rm.rmBits] ++ rm.dispBytes
  | .lds reg rm => [0b11000101#8, rm.modBits ++ reg ++ rm.rmBits] ++ rm.dispBytes
  | .les reg rm => [0b11000100#8, rm.modBits ++ reg ++ rm.rmBits] ++ rm.dispBytes
  | .lahf => [0b10011111#8]
  | .sahf => [0b10011110#8]
  | .pushf => [0b10011100#8]
  | .popf => [0b10011101#8]
  | .addRmReg d w reg rm =>
    [0b000000#6 ++ BitVec.ofBool d ++ BitVec.ofBool w, rm.modBits ++ reg ++ rm.rmBits] ++ rm.dispBytes
  | .addRmImm s w rm data =>
    [0b100000#6 ++ BitVec.ofBool s ++ BitVec.ofBool w, rm.modBits ++ 0b000#3 ++ rm.rmBits] ++ rm.dispBytes ++ data.bytes
  | .addAccImm w data => [0b0000010#7 ++ BitVec.ofBool w] ++ data.bytes
  | .adcRmReg d w reg rm =>
    [0b000100#6 ++ BitVec.ofBool d ++ BitVec.ofBool w, rm.modBits ++ reg ++ rm.rmBits] ++ rm.dispBytes
  | .adcRmImm s w rm data =>
    [0b100000#6 ++ BitVec.ofBool s ++ BitVec.ofBool w, rm.modBits ++ 0b010#3 ++ rm.rmBits] ++ rm.dispBytes ++ data.bytes
  | .adcAccImm w data => [0b0001010#7 ++ BitVec.ofBool w] ++ data.bytes
  | .incRm w rm => [0b1111111#7 ++ BitVec.ofBool w, rm.modBits ++ 0b000#3 ++ rm.rmBits] ++ rm.dispBytes
  | .incReg reg => [0b01000#5 ++ reg]
  | .aaa => [0b00110111#8]
  | .daa => [0b00100111#8]
  | .subRmReg d w reg rm =>
    [0b001010#6 ++ BitVec.ofBool d ++ BitVec.ofBool w, rm.modBits ++ reg ++ rm.rmBits] ++ rm.dispBytes
  | .subRmImm s w rm data =>
    [0b100000#6 ++ BitVec.ofBool s ++ BitVec.ofBool w, rm.modBits ++ 0b101#3 ++ rm.rmBits] ++ rm.dispBytes ++ data.bytes
  | .subAccImm w data => [0b0010110#7 ++ BitVec.ofBool w] ++ data.bytes
  | .sbbRmReg d w reg rm =>
    [0b000110#6 ++ BitVec.ofBool d ++ BitVec.ofBool w, rm.modBits ++ reg ++ rm.rmBits] ++ rm.dispBytes
  | .sbbRmImm s w rm data =>
    [0b100000#6 ++ BitVec.ofBool s ++ BitVec.ofBool w, rm.modBits ++ 0b011#3 ++ rm.rmBits] ++ rm.dispBytes ++ data.bytes
  | .sbbAccImm w data => [0b0001110#7 ++ BitVec.ofBool w] ++ data.bytes
  | .decRm w rm => [0b1111111#7 ++ BitVec.ofBool w, rm.modBits ++ 0b001#3 ++ rm.rmBits] ++ rm.dispBytes
  | .decReg reg => [0b01001#5 ++ reg]
  | .negRm w rm => [0b1111011#7 ++ BitVec.ofBool w, rm.modBits ++ 0b011#3 ++ rm.rmBits] ++ rm.dispBytes
  | .cmpRmReg d w reg rm =>
    [0b001110#6 ++ BitVec.ofBool d ++ BitVec.ofBool w, rm.modBits ++ reg ++ rm.rmBits] ++ rm.dispBytes
  | .cmpRmImm s w rm data =>
    [0b100000#6 ++ BitVec.ofBool s ++ BitVec.ofBool w, rm.modBits ++ 0b111#3 ++ rm.rmBits] ++ rm.dispBytes ++ data.bytes
  | .cmpAccImm w data => [0b0011110#7 ++ BitVec.ofBool w] ++ data.bytes
  | .aas => [0b00111111#8]
  | .das => [0b00101111#8]
  | .mulRm w rm => [0b1111011#7 ++ BitVec.ofBool w, rm.modBits ++ 0b100#3 ++ rm.rmBits] ++ rm.dispBytes
  | .imulRm w rm => [0b1111011#7 ++ BitVec.ofBool w, rm.modBits ++ 0b101#3 ++ rm.rmBits] ++ rm.dispBytes
  | .aam => [0b11010100#8, 0b00001010#8]
  | .divRm w rm => [0b1111011#7 ++ BitVec.ofBool w, rm.modBits ++ 0b110#3 ++ rm.rmBits] ++ rm.dispBytes
  | .idivRm w rm => [0b1111011#7 ++ BitVec.ofBool w, rm.modBits ++ 0b111#3 ++ rm.rmBits] ++ rm.dispBytes
  | .aad => [0b11010101#8, 0b00001010#8]
  | .cbw => [0b10011000#8]
  | .cwd => [0b10011001#8]

/-! ### Words of the opcode table -/

/-- The longest instruction (30_encoding.md rule R58). -/
def longestInstr : Nat := 6

/-- The bytes of a word of `nbytes` bytes as spec/opcode_table.json numbers it: one number whose most significant byte
is the first byte of the instruction (assumption 7). -/
def wordToBytes : Nat → Nat → List Byte
  | 0, _ => []
  | n + 1, w => BitVec.ofNat 8 (w >>> (8 * n)) :: wordToBytes n w

/-- An opcode-table word laid out as the buffer holds it: its bytes, then zeros up to the longest instruction. -/
def tableWordBytes (nbits w : Nat) : List Byte :=
  wordToBytes ((nbits + 7) / 8) w ++ List.replicate (longestInstr - (nbits + 7) / 8) 0

/-- The instruction this decoder reads from an opcode-table word. -/
def decodeTableWord (nbits w : Nat) : Option Instr :=
  match decode (tableWordBytes nbits w) with
  | .matched (i, _) => some i
  | .noMatch => none
  | .truncated _ => none
  | .noValue _ => none

end Sys2Proof
end

