-- ==== Sys2Proof/Machine/State.lean ====
section
/-! DEFINITION. The values the FTD outputs (40_operand_model.md), the host's operations and the replies to them
(43_stream_driver.md), the reasons a step can stop, the state (10_state.md rules R14 to R20) and its reset value
(rule R27). -/

namespace Sys2Proof.Machine

/-! ### Operands and decoded instructions -/

/-- The address expression of a memory operand: the raw `RM` value 0 to 7, or `DIRECT` (30_encoding.md rule R64). -/
inductive Ea where
  | base (rm : Reg3)
  | direct
  deriving DecidableEq, Repr

/-- An operand: exactly one of five kinds (40_operand_model.md rules R72 to R77). -/
inductive Operand where
  | none
  | reg (index : Reg3) (wide : Bool)
  | seg (index : Seg2)
  | imm (value : Word) (wide : Bool)
  | mem (ea : Ea) (disp : Word)
  deriving DecidableEq, Repr

/-- An instruction value `Instr(tag, slot0, slot1)` (40_operand_model.md rule R78). -/
structure Decoded where
  tag   : Tag
  slot0 : Operand
  slot1 : Operand
  deriving DecidableEq, Repr

/-- The null instruction (40_operand_model.md rule R79). -/
def Decoded.null : Decoded := ⟨.none, .none, .none⟩

/-! ### Host operations and replies -/

/-- The complete set of host operations (43_stream_driver.md rule R117). -/
inductive HostOp where
  | load (bytes : List Byte)
  | reset
  | next
  | tryRow (row : Nat)
  | status
  deriving DecidableEq, Repr

/-- The response to NEXT or TRY (40_operand_model.md rule R80, 60_exceptions.md rule R204). Only a response whose
outcome is `INSTR` has an instruction that is not null, a length that is not 0, a `w` and a `row` (assumption 9). -/
inductive Response where
  /-- `INSTR`: the instruction, the W side-band, the bytes consumed, the index of the matched row. -/
  | instr (i : Decoded) (w : Bool) (len row : Nat)
  /-- `END`. -/
  | endOfStream
  /-- `NOMATCH`. -/
  | noMatch
  /-- `FATAL`. -/
  | fatal
  /-- `REFUSED`. -/
  | refused
  deriving DecidableEq, Repr

/-- `STATUS` (10_state.md rule R19). -/
inductive Status where
  | ready
  | noMatch
  | fatal
  deriving DecidableEq, Repr

/-- What the host receives from an operation. -/
inductive Reply where
  /-- LOAD: `OK`. -/
  | loaded
  /-- RESET: `OK`. -/
  | resetDone
  /-- NEXT. -/
  | next (r : Response)
  /-- TRY. -/
  | tried (r : Response)
  /-- STATUS: `OK` with `STATUS`, `CUR`, `LGP`, `LEN`, and `FATAL_POS` when `STATUS = FATAL` (43_stream_driver.md rule
  R127). -/
  | status (status : Status) (cur lgp len : Nat) (fatalPos : Option Nat)
  /-- Any operation of an instance whose table is ill-formed: `REFUSED` (60_exceptions.md rule R212). -/
  | refused
  deriving DecidableEq, Repr

/-- One line on the error channel: NEXT at `pos` found no row for the bytes that begin with `byte` (44_rendering.md
rule R142; its text is `Params.diagText`). -/
structure Diag where
  pos  : Nat
  byte : Byte
  deriving DecidableEq, Repr

/-! ### Reasons to stop -/

/-- Why a step can fault. The FTD's own errors are no faults: `NOMATCH`, `TRUNCATED` and `REFUSED` are replies after
which it goes on (60_exceptions.md rule R213). -/
inductive Fault where
  /-- Raised by `Driver.next` and `Driver.tryRow` (43_stream_driver.md rule R123, 42_decoder.md rule R116) when the
  attempt needs the byte at offset `a`, below `LEN`, where `BUF` holds no value. Safe: the machine stops and returns
  no byte; no state with the invariant of Safety.lean has such an offset (assumption 2). -/
  | emptyCell (a : Nat)
  deriving DecidableEq, Repr

/-- Why a step can be refused. -/
inductive Refusal where
  /-- Raised by the arm of an instruction that has no meaning yet; no arm of this model is so. Safe: the machine
  stops. -/
  | notModelled (mnemonic : String)
  deriving DecidableEq, Repr

/-! ### The state -/

/-- The input buffer: the cells of `BUF` that hold a value, by rising offset (10_state.md rule R15). An offset that is
not listed holds no value. -/
abbrev Memory := List Host.Cell

/-- The state of an FTD instance (10_state.md rule R14), with the host's side of the interface: the operations it has
still to issue, the replies and the error channel. -/
structure State where
  /-- `BUF` (rule R15). -/
  buf : Memory
  /-- `LEN` (rule R16). -/
  len : Nat
  /-- `CUR`, the program counter (rule R17). -/
  cur : Nat
  /-- `LGP`, the last good position (rule R18). -/
  lgp : Nat
  /-- `STATUS` (rule R19). -/
  status : Status
  /-- `FATAL_POS` (rule R20). -/
  fatalPos : Nat
  /-- The operations the host will issue, the one it issues next first (00_scope.md rule R7; assumption 1). -/
  ops : List HostOp
  /-- The replies the host has received, oldest first (assumption 1). -/
  replies : List Reply
  /-- The error channel, oldest line first (43_stream_driver.md rule R125). -/
  err : List Diag
  /-- The model's own counter of free values used (assumption 3). -/
  freeCount : Nat
  deriving DecidableEq, Repr

/-- What a step answers. -/
abbrev Result := Host.Outcome State Fault Refusal

/-- The machine right after power-on (10_state.md rule R27, 70_reset_and_hazards.md rule R223), with no operation
issued and nothing on the channels. `FATAL_POS` is unspecified there: 0 is the model's choice (assumption 3). -/
def State.reset : State where
  buf := []
  len := 0
  cur := 0
  lgp := 0
  status := .ready
  fatalPos := 0
  ops := []
  replies := []
  err := []
  freeCount := 0

end Sys2Proof.Machine
end

