-- ==== Sys2Proof/Machine/Ops.lean ====
section
/-! DEFINITION. The named operations over the buffer and the registers: what LOAD stores, what the decoder reads, how an
operation is answered, how a match is committed, and how the fault `TRUNCATED` is recorded, which is all the "exception"
the FTD has (60_exceptions.md rules R207 and R213). -/

namespace Sys2Proof.Machine

/-! ### The buffer -/

/-- The canonical form of a buffer: offsets strictly rising. -/
def Memory.wf : Memory → Bool
  | [] => true
  | [_] => true
  | c :: d :: rest => decide (c.1 < d.1) && Memory.wf (d :: rest)

/-- The byte at an offset, none where `BUF` holds no value (10_state.md rule R15). -/
def Memory.read (m : Memory) (a : Nat) : Option Byte := m.lookup a

/-- Bytes laid out from offset `a` on. -/
def Memory.ofBytesAt : Nat → List Byte → Memory
  | _, [] => []
  | a, b :: bs => (a, b) :: Memory.ofBytesAt (a + 1) bs

/-- The buffer that holds these bytes from offset 0 on and no value beyond them (43_stream_driver.md rule R118). -/
def Memory.ofBytes (bytes : List Byte) : Memory := Memory.ofBytesAt 0 bytes

/-- What the decoder reads at each offset: nothing at or above `LEN` (20_memory.md rule R29). -/
def State.reader (s : State) : Reader := fun a =>
  if a < s.len then
    match Memory.read s.buf a with
    | some b => .byte b
    | none => .noValue
  else .pastEnd

/-! ### Answering an operation -/

/-- The host has a reply. -/
def State.hear (r : Reply) (s : State) : State := { s with replies := s.replies ++ [r] }

/-- The operation the host has issued is answered: the host has the reply, and the operation is taken off the list
(00_scope.md rule R7). -/
def State.answer (r : Reply) (s : State) : State := { s.hear r with ops := s.ops.tail }

/-- The host issues an operation: the FTD performs it in its next step (00_scope.md rule R7). -/
def State.issue (op : HostOp) (s : State) : State := { s with ops := op :: s.ops }

/-! ### Register updates -/

/-- `CUR <- end` (42_decoder.md rule R116). -/
def State.advance (len : Nat) (s : State) : State := { s with cur := s.cur + len }

/-- `CUR <- end; LGP <- end; STATUS <- READY` (43_stream_driver.md rule R124). -/
def State.commit (len : Nat) (s : State) : State :=
  { s with cur := s.cur + len, lgp := s.cur + len, status := .ready }

/-- `STATUS <- v`. -/
def State.setStatus (v : Status) (s : State) : State := { s with status := v }

/-- The fault `TRUNCATED(a)`: `STATUS <- FATAL; FATAL_POS <- a`, and nothing else (60_exceptions.md rules R207 and
R213). -/
def State.truncate (a : Nat) (s : State) : State := { s with status := .fatal, fatalPos := a }

/-- One line on the error channel (43_stream_driver.md rule R125). -/
def State.warn (d : Diag) (s : State) : State := { s with err := s.err ++ [d] }

/-- `CUR <- 0; LGP <- 0; STATUS <- READY` (43_stream_driver.md rules R118 and R119): the only return from `FATAL`
(60_exceptions.md rule R209). -/
def State.restart (s : State) : State := { s with cur := 0, lgp := 0, status := .ready }

/-- `FATAL_POS` is unspecified from here on (10_state.md rule R27): it takes a free value. -/
def State.forgetFatalPos (s : State) : State :=
  { s with fatalPos := Config.freeFatalPos s.freeCount, freeCount := s.freeCount + 1 }

/-- `BUF` and `LEN` as LOAD leaves them: bytes beyond the capacity are dropped (43_stream_driver.md rule R118). -/
def State.store (capacity : Nat) (bytes : List Byte) (s : State) : State :=
  { s with buf := Memory.ofBytes (bytes.take capacity), len := min bytes.length capacity }

/-- An image placed as LOAD places it, and NEXT issued (assumption 8). Of LOAD's effect only the reply and the free value
of `FATAL_POS` are left out. -/
def State.placeAndIssueNext (bytes : List Byte) (s : State) : State :=
  (s.store Config.inputCapacity bytes).restart.issue .next

/-! ### Completing a match -/

/-- A row matched: the effect of a successful NEXT (43_stream_driver.md rule R124), or of a successful TRY where the
host has issued a TRY (42_decoder.md rule R116). Where it has issued neither, the FTD decodes nothing; the effect is then
NEXT's, and no operation is taken off the list (assumption 4). -/
def complete (i : Decoded) (w : Bool) (len row : Nat) (s : State) : Result :=
  match s.ops with
  | .tryRow _ :: _ => .next ((s.advance len).answer (.tried (.instr i w len row)))
  | .next :: _ => .next ((s.commit len).answer (.next (.instr i w len row)))
  | _ => .next ((s.commit len).hear (.next (.instr i w len row)))

end Sys2Proof.Machine
end

