-- ==== Sys2Proof/Machine/Operands.lean ====
section
/-! DEFINITION. The operand forms of the rows (42_decoder.md rules R108 to R112, 45_fmt_data_transfer.md's `RMOP(x)`) and
the equality of operands and instructions (40_operand_model.md rules R81 to R87). -/

namespace Sys2Proof.Machine

/-! ### Building operands from an instruction's fields -/

/-- `RMOP(x)`, the r/m operand (42_decoder.md rule R110). -/
def rmOperand (wide : Bool) : RmForm → Operand
  | .reg rm => .reg rm wide
  | .direct addr => .mem .direct addr
  | .mem0 rm => .mem (.base rm) 0
  | .mem8 rm disp => .mem (.base rm) (sext16 disp)
  | .mem16 rm disp => .mem (.base rm) disp

/-- The immediate operand: a narrow datum is sign-extended where `signed`, zero-extended otherwise (42_decoder.md rules
R107 and R112). -/
def immOperand (signed : Bool) : ImmData → Operand
  | .byte b => .imm (if signed then sext16 b else zext16 b) false
  | .word v => .imm v true

/-- The slots of a reg-like and a mod-like operand: `D = 1` puts the reg-like one in slot 0, `D = 0` in slot 1
(42_decoder.md rule R108). -/
def slotsByD (tag : Tag) (d : Bool) (regLike modLike : Operand) : Decoded :=
  if d then ⟨tag, regLike, modLike⟩ else ⟨tag, modLike, regLike⟩

/-- The ROM code of an address expression: `DIRECT` is 8 (30_encoding.md rule R64). -/
def Ea.code : Ea → Nat
  | .base rm => rm.toNat
  | .direct => 8

/-! ### Equality -/

/-- Operand equality under an immediate-equality rule (40_operand_model.md rules R81 to R85). -/
def Operand.eqBy (m : ImmEq) : Operand → Operand → Bool
  | .none, .none => true
  | .reg i v, .reg j w => i == j && v == w
  | .seg i, .seg j => i == j
  | .imm x v, .imm y w =>
    v == w && (if v then x == y else match m with
      | .byteTruncated => lowByte x == lowByte y
      | .full16 => x == y)
  | .mem e d, .mem f g => e == f && d == g
  | .none, _ => false
  | .reg _ _, _ => false
  | .seg _, _ => false
  | .imm _ _, _ => false
  | .mem _ _, _ => false

/-- Instruction equality (40_operand_model.md rule R86). -/
def Decoded.eqBy (m : ImmEq) (a b : Decoded) : Bool :=
  a.tag == b.tag && a.slot0.eqBy m b.slot0 && a.slot1.eqBy m b.slot1

/-- `isNull(i)` (40_operand_model.md rule R79). -/
def Decoded.isNull (i : Decoded) : Bool := i.tag == .none

/-! ### The parts of a response -/

/-- The outcome code of a response (60_exceptions.md rule R204). -/
def Response.code : Response → Nat
  | .instr _ _ _ _ => 0
  | .endOfStream => 1
  | .noMatch => 2
  | .fatal => 3
  | .refused => 4

/-- `instr`: the null instruction unless the outcome is `INSTR` (40_operand_model.md rule R80). -/
def Response.instruction : Response → Decoded
  | .instr i _ _ _ => i
  | .endOfStream => Decoded.null
  | .noMatch => Decoded.null
  | .fatal => Decoded.null
  | .refused => Decoded.null

/-- `len`: 0 unless the outcome is `INSTR` (40_operand_model.md rule R80). -/
def Response.length : Response → Nat
  | .instr _ _ len _ => len
  | .endOfStream => 0
  | .noMatch => 0
  | .fatal => 0
  | .refused => 0

/-- The outcome code of a reply: LOAD, RESET and STATUS answer `OK`, code 0 (60_exceptions.md rule R204). -/
def Reply.code : Reply → Nat
  | .loaded => 0
  | .resetDone => 0
  | .next r => r.code
  | .tried r => r.code
  | .status _ _ _ _ _ => 0
  | .refused => 4

end Sys2Proof.Machine
end

