-- ==== Sys2Proof/Machine/Arithmetic.lean ====
section
/-! DEFINITION. The meanings of rows F28 to F59, arithmetic (46_fmt_arithmetic.md rules R172 to R203). Each
meaning gives the row's operands, its W side-band, its length and its index in `REF_TABLE`, as the row's own rule states
them; `complete` does the rest. The FTD decodes and does not execute: no 8086 register, flag or memory is state. -/

namespace Sys2Proof.Machine

/-- F28, `add`, register/memory with register to either: rule R172. -/
def execAddRmReg (d : Bool) (w : Bool) (reg : Reg3) (rm : RmForm) (s : State) : Result :=
  complete (slotsByD .add d (.reg reg w) (rmOperand w rm)) w (2 + rm.dispLen) 27 s

/-- F29, `add`, immediate to register/memory: rule R173. -/
def execAddRmImm (s : Bool) (w : Bool) (rm : RmForm) (data : ImmData) (st : State) : Result :=
  complete ⟨.add, rmOperand w rm, immOperand s data⟩ w (2 + rm.dispLen + data.dataLen) 28 st

/-- F30, `add`, immediate to accumulator: rule R174. -/
def execAddAccImm (w : Bool) (data : ImmData) (s : State) : Result :=
  complete ⟨.add, .reg 0 w, immOperand false data⟩ w (1 + data.dataLen) 29 s

/-- F31, `adc`, register/memory with register to either: rule R175. -/
def execAdcRmReg (d : Bool) (w : Bool) (reg : Reg3) (rm : RmForm) (s : State) : Result :=
  complete (slotsByD .adc d (.reg reg w) (rmOperand w rm)) w (2 + rm.dispLen) 30 s

/-- F32, `adc`, immediate to register/memory: rule R176. -/
def execAdcRmImm (s : Bool) (w : Bool) (rm : RmForm) (data : ImmData) (st : State) : Result :=
  complete ⟨.adc, rmOperand w rm, immOperand s data⟩ w (2 + rm.dispLen + data.dataLen) 31 st

/-- F33, `adc`, immediate to accumulator: rule R177. -/
def execAdcAccImm (w : Bool) (data : ImmData) (s : State) : Result :=
  complete ⟨.adc, .reg 0 w, immOperand false data⟩ w (1 + data.dataLen) 32 s

/-- F34, `inc`, register/memory: rule R178. -/
def execIncRm (w : Bool) (rm : RmForm) (s : State) : Result :=
  complete ⟨.inc, rmOperand w rm, .none⟩ w (2 + rm.dispLen) 33 s

/-- F35, `inc`, register: rule R179. -/
def execIncReg (reg : Reg3) (s : State) : Result :=
  complete ⟨.inc, .reg reg true, .none⟩ true 1 34 s

/-- F36, `aaa`, ASCII adjust for add: rule R180. -/
def execAaa (s : State) : Result :=
  complete ⟨.aaa, .none, .none⟩ false 1 35 s

/-- F37, `daa`, decimal adjust for add: rule R181. -/
def execDaa (s : State) : Result :=
  complete ⟨.daa, .none, .none⟩ false 1 36 s

/-- F38, `sub`, register/memory with register to either: rule R182. -/
def execSubRmReg (d : Bool) (w : Bool) (reg : Reg3) (rm : RmForm) (s : State) : Result :=
  complete (slotsByD .sub d (.reg reg w) (rmOperand w rm)) w (2 + rm.dispLen) 37 s

/-- F39, `sub`, immediate to register/memory: rule R183. -/
def execSubRmImm (s : Bool) (w : Bool) (rm : RmForm) (data : ImmData) (st : State) : Result :=
  complete ⟨.sub, rmOperand w rm, immOperand s data⟩ w (2 + rm.dispLen + data.dataLen) 38 st

/-- F40, `sub`, immediate to accumulator: rule R184. -/
def execSubAccImm (w : Bool) (data : ImmData) (s : State) : Result :=
  complete ⟨.sub, .reg 0 w, immOperand false data⟩ w (1 + data.dataLen) 39 s

/-- F41, `sbb`, register/memory with register to either: rule R185. -/
def execSbbRmReg (d : Bool) (w : Bool) (reg : Reg3) (rm : RmForm) (s : State) : Result :=
  complete (slotsByD .sbb d (.reg reg w) (rmOperand w rm)) w (2 + rm.dispLen) 40 s

/-- F42, `sbb`, immediate to register/memory: rule R186. -/
def execSbbRmImm (s : Bool) (w : Bool) (rm : RmForm) (data : ImmData) (st : State) : Result :=
  complete ⟨.sbb, rmOperand w rm, immOperand s data⟩ w (2 + rm.dispLen + data.dataLen) 41 st

/-- F43, `sbb`, immediate to accumulator: rule R187. -/
def execSbbAccImm (w : Bool) (data : ImmData) (s : State) : Result :=
  complete ⟨.sbb, .reg 0 w, immOperand false data⟩ w (1 + data.dataLen) 42 s

/-- F44, `dec`, register/memory: rule R188. -/
def execDecRm (w : Bool) (rm : RmForm) (s : State) : Result :=
  complete ⟨.dec, rmOperand w rm, .none⟩ w (2 + rm.dispLen) 43 s

/-- F45, `dec`, register: rule R189. -/
def execDecReg (reg : Reg3) (s : State) : Result :=
  complete ⟨.dec, .reg reg true, .none⟩ true 1 44 s

/-- F46, `neg`, change sign: rule R190. -/
def execNegRm (w : Bool) (rm : RmForm) (s : State) : Result :=
  complete ⟨.neg, rmOperand w rm, .none⟩ w (2 + rm.dispLen) 45 s

/-- F47, `cmp`, register/memory with register to either: rule R191. -/
def execCmpRmReg (d : Bool) (w : Bool) (reg : Reg3) (rm : RmForm) (s : State) : Result :=
  complete (slotsByD .cmp d (.reg reg w) (rmOperand w rm)) w (2 + rm.dispLen) 46 s

/-- F48, `cmp`, immediate to register/memory: rule R192. -/
def execCmpRmImm (s : Bool) (w : Bool) (rm : RmForm) (data : ImmData) (st : State) : Result :=
  complete ⟨.cmp, rmOperand w rm, immOperand s data⟩ w (2 + rm.dispLen + data.dataLen) 47 st

/-- F49, `cmp`, immediate to accumulator: rule R193. -/
def execCmpAccImm (w : Bool) (data : ImmData) (s : State) : Result :=
  complete ⟨.cmp, .reg 0 w, immOperand false data⟩ w (1 + data.dataLen) 48 s

/-- F50, `aas`, ASCII adjust for subtract: rule R194. -/
def execAas (s : State) : Result :=
  complete ⟨.aas, .none, .none⟩ false 1 49 s

/-- F51, `das`, decimal adjust for subtract: rule R195. -/
def execDas (s : State) : Result :=
  complete ⟨.das, .none, .none⟩ false 1 50 s

/-- F52, `mul`, multiply (unsigned): rule R196. -/
def execMulRm (w : Bool) (rm : RmForm) (s : State) : Result :=
  complete ⟨.mul, rmOperand w rm, .none⟩ w (2 + rm.dispLen) 51 s

/-- F53, `imul`, integer multiply (signed): rule R197. -/
def execImulRm (w : Bool) (rm : RmForm) (s : State) : Result :=
  complete ⟨.imul, rmOperand w rm, .none⟩ w (2 + rm.dispLen) 52 s

/-- F54, `aam`, ASCII adjust for multiply: rule R198. -/
def execAam (s : State) : Result :=
  complete ⟨.aam, .none, .none⟩ false 2 53 s

/-- F55, `div`, divide (unsigned): rule R199. -/
def execDivRm (w : Bool) (rm : RmForm) (s : State) : Result :=
  complete ⟨.div, rmOperand w rm, .none⟩ w (2 + rm.dispLen) 54 s

/-- F56, `idiv`, integer divide (signed): rule R200. -/
def execIdivRm (w : Bool) (rm : RmForm) (s : State) : Result :=
  complete ⟨.idiv, rmOperand w rm, .none⟩ w (2 + rm.dispLen) 55 s

/-- F57, `aad`, ASCII adjust for divide: rule R201. -/
def execAad (s : State) : Result :=
  complete ⟨.aad, .none, .none⟩ false 2 56 s

/-- F58, `cbw`, convert byte to word: rule R202. -/
def execCbw (s : State) : Result :=
  complete ⟨.cbw, .none, .none⟩ false 1 57 s

/-- F59, `cwd`, convert word to double word: rule R203. -/
def execCwd (s : State) : Result :=
  complete ⟨.cwd, .none, .none⟩ false 1 58 s

end Sys2Proof.Machine
end

