-- ==== Sys2Proof/Machine/DataTransfer.lean ====
section
/-! DEFINITION. The meanings of rows F01 to F27, data transfer (45_fmt_data_transfer.md rules R145 to R171). Each
meaning gives the row's operands, its W side-band, its length and its index in `REF_TABLE`, as the row's own rule states
them; `complete` does the rest. The FTD decodes and does not execute: no 8086 register, flag or memory is state. -/

namespace Sys2Proof.Machine

/-- F01, `mov`, register/memory to/from register: rule R145. -/
def execMovRmReg (d : Bool) (w : Bool) (reg : Reg3) (rm : RmForm) (s : State) : Result :=
  complete (slotsByD .mov d (.reg reg w) (rmOperand w rm)) w (2 + rm.dispLen) 0 s

/-- F02, `mov`, immediate to register/memory: rule R146. -/
def execMovRmImm (w : Bool) (rm : RmForm) (data : ImmData) (s : State) : Result :=
  complete ⟨.mov, rmOperand w rm, immOperand false data⟩ w (2 + rm.dispLen + data.dataLen) 1 s

/-- F03, `mov`, immediate to register: rule R147. -/
def execMovRegImm (w : Bool) (reg : Reg3) (data : ImmData) (s : State) : Result :=
  complete ⟨.mov, .reg reg w, immOperand false data⟩ w (1 + data.dataLen) 2 s

/-- F04, `mov`, memory to accumulator: rule R148. -/
def execMovAccMem (w : Bool) (addr : Word) (s : State) : Result :=
  complete ⟨.mov, .reg 0 w, .mem .direct addr⟩ w (1 + 2) 3 s

/-- F05, `mov`, accumulator to memory: rule R149. -/
def execMovMemAcc (w : Bool) (addr : Word) (s : State) : Result :=
  complete ⟨.mov, .mem .direct addr, .reg 0 w⟩ w (1 + 2) 4 s

/-- F06, `mov`, register/memory to segment register: rule R150. -/
def execMovSegRm (sr : Seg2) (rm : RmForm) (s : State) : Result :=
  complete ⟨.mov, .seg sr, rmOperand true rm⟩ true (2 + rm.dispLen) 5 s

/-- F07, `mov`, segment register to register/memory: rule R151. -/
def execMovRmSeg (sr : Seg2) (rm : RmForm) (s : State) : Result :=
  complete ⟨.mov, rmOperand true rm, .seg sr⟩ true (2 + rm.dispLen) 6 s

/-- F08, `push`, register/memory: rule R152. -/
def execPushRm (rm : RmForm) (s : State) : Result :=
  complete ⟨.push, rmOperand true rm, .none⟩ true (2 + rm.dispLen) 7 s

/-- F09, `push`, register: rule R153. -/
def execPushReg (reg : Reg3) (s : State) : Result :=
  complete ⟨.push, .reg reg true, .none⟩ true 1 8 s

/-- F10, `push`, segment register: rule R154. -/
def execPushSeg (sr : Seg2) (s : State) : Result :=
  complete ⟨.push, .seg sr, .none⟩ false 1 9 s

/-- F11, `pop`, register/memory: rule R155. -/
def execPopRm (rm : RmForm) (s : State) : Result :=
  complete ⟨.pop, rmOperand true rm, .none⟩ true (2 + rm.dispLen) 10 s

/-- F12, `pop`, register: rule R156. -/
def execPopReg (reg : Reg3) (s : State) : Result :=
  complete ⟨.pop, .reg reg true, .none⟩ true 1 11 s

/-- F13, `pop`, segment register: rule R157. -/
def execPopSeg (sr : Seg2) (s : State) : Result :=
  complete ⟨.pop, .seg sr, .none⟩ false 1 12 s

/-- F14, `xchg`, register/memory with register: rule R158. -/
def execXchgRmReg (w : Bool) (reg : Reg3) (rm : RmForm) (s : State) : Result :=
  complete ⟨.xchg, rmOperand w rm, .reg reg w⟩ w (2 + rm.dispLen) 13 s

/-- F15, `xchg`, register with accumulator: rule R159. -/
def execXchgAccReg (reg : Reg3) (s : State) : Result :=
  complete ⟨.xchg, .reg 0 true, .reg reg true⟩ true 1 14 s

/-- F16, `in`, fixed port: rule R160. -/
def execInFixed (w : Bool) (port : Byte) (s : State) : Result :=
  complete ⟨.inp, .reg 0 w, .imm (zext16 port) false⟩ w (1 + 1) 15 s

/-- F17, `in`, variable port (DX): rule R161. -/
def execInDx (w : Bool) (s : State) : Result :=
  complete ⟨.inp, .reg 0 w, .reg 2 true⟩ w 1 16 s

/-- F18, `out`, fixed port: rule R162. -/
def execOutFixed (w : Bool) (port : Byte) (s : State) : Result :=
  complete ⟨.outp, .imm (zext16 port) false, .reg 0 w⟩ w (1 + 1) 17 s

/-- F19, `out`, variable port (DX): rule R163. -/
def execOutDx (w : Bool) (s : State) : Result :=
  complete ⟨.outp, .reg 2 true, .reg 0 w⟩ w 1 18 s

/-- F20, `xlat`, translate byte to AL: rule R164. -/
def execXlat (s : State) : Result :=
  complete ⟨.xlat, .none, .none⟩ false 1 19 s

/-- F21, `lea`, load effective address to register: rule R165. -/
def execLea (reg : Reg3) (rm : RmForm) (s : State) : Result :=
  complete ⟨.lea, .reg reg true, rmOperand true rm⟩ true (2 + rm.dispLen) 20 s

/-- F22, `lds`, load pointer to DS: rule R166. -/
def execLds (reg : Reg3) (rm : RmForm) (s : State) : Result :=
  complete ⟨.lds, .reg reg true, rmOperand true rm⟩ true (2 + rm.dispLen) 21 s

/-- F23, `les`, load pointer to ES: rule R167. -/
def execLes (reg : Reg3) (rm : RmForm) (s : State) : Result :=
  complete ⟨.les, .reg reg true, rmOperand true rm⟩ true (2 + rm.dispLen) 22 s

/-- F24, `lahf`, load AH with flags: rule R168. -/
def execLahf (s : State) : Result :=
  complete ⟨.lahf, .none, .none⟩ false 1 23 s

/-- F25, `sahf`, store AH into flags: rule R169. -/
def execSahf (s : State) : Result :=
  complete ⟨.sahf, .none, .none⟩ false 1 24 s

/-- F26, `pushf`, push flags: rule R170. -/
def execPushf (s : State) : Result :=
  complete ⟨.pushf, .none, .none⟩ false 1 25 s

/-- F27, `popf`, pop flags: rule R171. -/
def execPopf (s : State) : Result :=
  complete ⟨.popf, .none, .none⟩ false 1 26 s

end Sys2Proof.Machine
end

