-- ==== Sys2Proof/Machine/Dispatch.lean ====
section
/-! DEFINITION. What each decoded instruction does: one arm per row of the reference table. -/

namespace Sys2Proof.Machine

def exec (i : Instr) (s : State) : Host.Outcome State Fault Refusal :=
  match i with
  | .movRmReg d w reg rm => Sys2Proof.Machine.execMovRmReg d w reg rm s
  | .movRmImm w rm data => Sys2Proof.Machine.execMovRmImm w rm data s
  | .movRegImm w reg data => Sys2Proof.Machine.execMovRegImm w reg data s
  | .movAccMem w addr => Sys2Proof.Machine.execMovAccMem w addr s
  | .movMemAcc w addr => Sys2Proof.Machine.execMovMemAcc w addr s
  | .movSegRm sr rm => Sys2Proof.Machine.execMovSegRm sr rm s
  | .movRmSeg sr rm => Sys2Proof.Machine.execMovRmSeg sr rm s
  | .pushRm rm => Sys2Proof.Machine.execPushRm rm s
  | .pushReg reg => Sys2Proof.Machine.execPushReg reg s
  | .pushSeg sr => Sys2Proof.Machine.execPushSeg sr s
  | .popRm rm => Sys2Proof.Machine.execPopRm rm s
  | .popReg reg => Sys2Proof.Machine.execPopReg reg s
  | .popSeg sr => Sys2Proof.Machine.execPopSeg sr s
  | .xchgRmReg w reg rm => Sys2Proof.Machine.execXchgRmReg w reg rm s
  | .xchgAccReg reg => Sys2Proof.Machine.execXchgAccReg reg s
  | .inFixed w port => Sys2Proof.Machine.execInFixed w port s
  | .inDx w => Sys2Proof.Machine.execInDx w s
  | .outFixed w port => Sys2Proof.Machine.execOutFixed w port s
  | .outDx w => Sys2Proof.Machine.execOutDx w s
  | .xlat => Sys2Proof.Machine.execXlat s
  | .lea reg rm => Sys2Proof.Machine.execLea reg rm s
  | .lds reg rm => Sys2Proof.Machine.execLds reg rm s
  | .les reg rm => Sys2Proof.Machine.execLes reg rm s
  | .lahf => Sys2Proof.Machine.execLahf s
  | .sahf => Sys2Proof.Machine.execSahf s
  | .pushf => Sys2Proof.Machine.execPushf s
  | .popf => Sys2Proof.Machine.execPopf s
  | .addRmReg d w reg rm => Sys2Proof.Machine.execAddRmReg d w reg rm s
  | .addRmImm sx w rm data => Sys2Proof.Machine.execAddRmImm sx w rm data s
  | .addAccImm w data => Sys2Proof.Machine.execAddAccImm w data s
  | .adcRmReg d w reg rm => Sys2Proof.Machine.execAdcRmReg d w reg rm s
  | .adcRmImm sx w rm data => Sys2Proof.Machine.execAdcRmImm sx w rm data s
  | .adcAccImm w data => Sys2Proof.Machine.execAdcAccImm w data s
  | .incRm w rm => Sys2Proof.Machine.execIncRm w rm s
  | .incReg reg => Sys2Proof.Machine.execIncReg reg s
  | .aaa => Sys2Proof.Machine.execAaa s
  | .daa => Sys2Proof.Machine.execDaa s
  | .subRmReg d w reg rm => Sys2Proof.Machine.execSubRmReg d w reg rm s
  | .subRmImm sx w rm data => Sys2Proof.Machine.execSubRmImm sx w rm data s
  | .subAccImm w data => Sys2Proof.Machine.execSubAccImm w data s
  | .sbbRmReg d w reg rm => Sys2Proof.Machine.execSbbRmReg d w reg rm s
  | .sbbRmImm sx w rm data => Sys2Proof.Machine.execSbbRmImm sx w rm data s
  | .sbbAccImm w data => Sys2Proof.Machine.execSbbAccImm w data s
  | .decRm w rm => Sys2Proof.Machine.execDecRm w rm s
  | .decReg reg => Sys2Proof.Machine.execDecReg reg s
  | .negRm w rm => Sys2Proof.Machine.execNegRm w rm s
  | .cmpRmReg d w reg rm => Sys2Proof.Machine.execCmpRmReg d w reg rm s
  | .cmpRmImm sx w rm data => Sys2Proof.Machine.execCmpRmImm sx w rm data s
  | .cmpAccImm w data => Sys2Proof.Machine.execCmpAccImm w data s
  | .aas => Sys2Proof.Machine.execAas s
  | .das => Sys2Proof.Machine.execDas s
  | .mulRm w rm => Sys2Proof.Machine.execMulRm w rm s
  | .imulRm w rm => Sys2Proof.Machine.execImulRm w rm s
  | .aam => Sys2Proof.Machine.execAam s
  | .divRm w rm => Sys2Proof.Machine.execDivRm w rm s
  | .idivRm w rm => Sys2Proof.Machine.execIdivRm w rm s
  | .aad => Sys2Proof.Machine.execAad s
  | .cbw => Sys2Proof.Machine.execCbw s
  | .cwd => Sys2Proof.Machine.execCwd s

end Sys2Proof.Machine
end

