-- ==== Sys2Proof/Machine/TryCore.lean ====
section
/-! DEFINITION. TRY_CORE for any row of any table: the ten steps of 42_decoder.md rules R100 to R113. Steps 1 to 6 are
`parse`; here are steps 7 to 10, which fill the two slots. The reference machine goes through `exec` instead, whose
meanings follow the rows' own rules; that the two agree is a statement of Certificates/Slice0. -/

namespace Sys2Proof.Machine

/-- The two operand slots (10_state.md rule R24). -/
structure Slots where
  slot0 : Operand
  slot1 : Operand
  deriving DecidableEq, Repr

/-- `SLOT[0] <- None, SLOT[1] <- None` (42_decoder.md rule R101). -/
def Slots.empty : Slots := ⟨.none, .none⟩

/-- `SLOT[0] <- v` or `SLOT[1] <- v`. -/
def Slots.fill (first : Bool) (v : Operand) (t : Slots) : Slots :=
  if first then { t with slot0 := v } else { t with slot1 := v }

/-- Step 7, the reg-like operand (42_decoder.md rules R108 and R109): `SR` before `REG`. -/
def Slots.putRegLike (m : FieldMap) (t : Slots) : Slots :=
  if m.present .sr then t.fill m.regFirst (.seg ((m.val .sr).setWidth 2))
  else if m.present .reg then t.fill m.regFirst (.reg ((m.val .reg).setWidth 3) m.wide)
  else t

/-- Step 7, the mod-like operand (42_decoder.md rules R108 and R110). -/
def Slots.putModLike (m : FieldMap) (disp : Word) (t : Slots) : Slots :=
  if m.present .rm then
    t.fill (!m.regFirst)
      (if m.val .mod = 3 then .reg ((m.val .rm).setWidth 3) (m.wide || m.rmAlwaysWide)
       else .mem (if m.direct then .direct else .base ((m.val .rm).setWidth 3)) disp)
  else t

/-- Steps 8 and 9 (42_decoder.md rules R111 and R112): with both slots filled the data are dropped, otherwise they go
into the first empty slot. -/
def Slots.putData (p : Parsed) (t : Slots) : Slots :=
  if t.slot0 ≠ .none ∧ t.slot1 ≠ .none then t
  else if p.map.hasData then t.fill (t.slot0 == .none) (.imm p.data p.dataWide)
  else t

/-- What a match answers: the instruction, the W side-band and the offset after the last byte (42_decoder.md rule
R99). -/
structure CoreMatch where
  instr : Decoded
  w     : Bool
  stop  : Nat
  deriving DecidableEq, Repr

/-- Steps 7 to 10 (42_decoder.md rules R108 to R113). -/
def finishCore (tag : Tag) (p : Parsed) : CoreMatch :=
  let t := ((Slots.empty.putRegLike p.map).putModLike p.map p.disp).putData p
  ⟨⟨tag, t.slot0, t.slot1⟩, p.map.wide, p.stop⟩

/-- `TRY_CORE(row)` (42_decoder.md rule R99). -/
def tryCore (rd : Reader) (cur : Nat) (row : Row) : Attempt CoreMatch :=
  (parse rd cur row).andThen fun p => .matched (finishCore row.tag p)

end Sys2Proof.Machine
end

