-- ==== Sys2Proof/Machine/Driver.lean ====
section
/-! DEFINITION. The host operations LOAD, RESET, NEXT, STATUS (43_stream_driver.md) and TRY (42_decoder.md rule R116),
each one atomic step. NEXT and TRY are written once over what an attempt gives and what a match does; the reference
machine attempts a row by decoding it and hands the instruction to `exec`, and an instance with any other table attempts
it by TRY_CORE. -/

namespace Sys2Proof.Machine

/-! ### LOAD, RESET, STATUS -/

/-- LOAD(`bytes`) (43_stream_driver.md rule R118). -/
def Driver.load (capacity : Nat) (bytes : List Byte) (s : State) : Result :=
  .next (((s.store capacity bytes).restart.forgetFatalPos).answer .loaded)

/-- RESET (43_stream_driver.md rule R119). -/
def Driver.reset (s : State) : Result := .next ((s.restart.forgetFatalPos).answer .resetDone)

/-- `FATAL_POS` as STATUS reports it: only when `STATUS = FATAL` (43_stream_driver.md rule R127). -/
def State.reportedFatalPos (s : State) : Option Nat := if s.status = .fatal then some s.fatalPos else none

/-- STATUS (43_stream_driver.md rule R127): no state change. -/
def Driver.status (s : State) : Result := .next (s.answer (.status s.status s.cur s.lgp s.len s.reportedFatalPos))

/-! ### NEXT -/

/-- NEXT when no row matches (43_stream_driver.md rule R125): one diagnostic line, `STATUS <- NOMATCH`, nothing else.
The byte of the line is `BUF[CUR]` (44_rendering.md rule R142). -/
def Driver.nextNoMatch (s : State) : Result :=
  match memRead1 s.reader s.cur with
  | .matched b => .next (((s.setStatus .noMatch).warn ⟨s.cur, b⟩).answer (.next .noMatch))
  | .noMatch => .next ((s.setStatus .noMatch).answer (.next .noMatch))
  | .truncated a => .next ((s.truncate a).answer (.next .fatal))
  | .noValue a => .fault (.emptyCell a)

/-- NEXT (43_stream_driver.md rules R120 to R125, 60_exceptions.md rule R208), over `scan`, the table's attempt at
`CUR`, and `commit`, what a match does. -/
def Driver.nextWith {α : Type} (scan : State → Attempt α) (commit : α → State → Result) (s : State) : Result :=
  if s.status = .fatal then .next (s.answer (.next .fatal))
  else if s.len ≤ s.cur then .next ((s.setStatus .ready).answer (.next .endOfStream))
  else
    match scan s with
    | .matched a => commit a s
    | .noMatch => Driver.nextNoMatch s
    | .truncated a => .next ((s.truncate a).answer (.next .fatal))
    | .noValue a => .fault (.emptyCell a)

/-! ### TRY -/

/-- TRY (42_decoder.md rule R116), over `attempt`, one row's attempt at `CUR` or none for an index outside the table
(60_exceptions.md rule R212), and `commit`. With a bad index and `STATUS = FATAL` at once, both rules R209 and R212
speak: which answer is given is a free value (assumption 5). -/
def Driver.tryWith {α : Type} (attempt : State → Option (Attempt α)) (commit : α → State → Result) (s : State) :
    Result :=
  match attempt s with
  | none =>
    if s.status = .fatal ∧ Config.badRowBeatsFatal = false then .next (s.answer (.tried .fatal))
    else .next (s.answer (.tried .refused))
  | some x =>
    if s.status = .fatal then .next (s.answer (.tried .fatal))
    else
      match x with
      | .matched a => commit a s
      | .noMatch => .next (s.answer (.tried .noMatch))
      | .truncated a => .next ((s.truncate a).answer (.tried .fatal))
      | .noValue a => .fault (.emptyCell a)

/-! ### The reference machine -/

/-- A decoded instruction is executed: the offset after it plays no part, since its meaning states its length. -/
def Driver.run (m : Instr × Nat) (s : State) : Result := exec m.1 s

/-- NEXT of the reference machine. -/
def Driver.next (s : State) : Result := Driver.nextWith (fun s => decodeAt s.reader s.cur) Driver.run s

/-- TRY(`row`) of the reference machine. -/
def Driver.tryRow (row : Nat) (s : State) : Result :=
  Driver.tryWith (fun s => (RowId.ofIndex row).map (decodeRow s.reader s.cur)) Driver.run s

/-- One host operation on the reference machine, whose table passed its checks at power-on (70_reset_and_hazards.md
rule R224). -/
def Driver.perform (op : HostOp) (s : State) : Result :=
  match op with
  | .load bytes => Driver.load Config.inputCapacity bytes s
  | .reset => Driver.reset s
  | .next => Driver.next s
  | .tryRow row => Driver.tryRow row s
  | .status => Driver.status s

/-- The step of a machine that performs operations by `perform`: the operation the host issues next; with none it is
idle and holds its state (60_exceptions.md rule R222). -/
def Driver.stepWith (perform : HostOp → State → Result) (s : State) : Result :=
  match s.ops with
  | [] => .next s
  | op :: _ => perform op s

/-! ### An instance with any parameters -/

/-- A row of a table with its index. -/
def indexedRows (t : List Row) : List (Row × Nat) := t.zipIdx

/-- The attempt of a row at `CUR`: TRY_CORE's match, with the row's index. -/
def coreAttempt (s : State) (r : Row × Nat) : Attempt (CoreMatch × Nat) :=
  (tryCore s.reader s.cur r.1).andThen fun m => .matched (m, r.2)

/-- A match of TRY_CORE is committed: the length is `end - CUR` (43_stream_driver.md rule R124). -/
def Driver.commitCore (m : CoreMatch × Nat) (s : State) : Result :=
  complete m.1.instr m.1.w (m.1.stop - s.cur) m.2 s

/-- NEXT of an instance (43_stream_driver.md rule R120). -/
def Driver.nextOf (p : Params) (s : State) : Result :=
  Driver.nextWith (fun s => firstAttempt (coreAttempt s) (indexedRows p.formatTable)) Driver.commitCore s

/-- TRY(`row`) of an instance (42_decoder.md rule R116). -/
def Driver.tryRowOf (p : Params) (row : Nat) (s : State) : Result :=
  Driver.tryWith (fun s => ((indexedRows p.formatTable)[row]?).map (coreAttempt s)) Driver.commitCore s

/-- One host operation on an instance with parameters `p`. An instance whose table is ill-formed answers `REFUSED` to
every operation and changes no state (60_exceptions.md rule R212, 70_reset_and_hazards.md rule R224). -/
def Driver.performOf (p : Params) (op : HostOp) (s : State) : Result :=
  if p.tableAccepted then
    match op with
    | .load bytes => Driver.load p.inputCapacity bytes s
    | .reset => Driver.reset s
    | .next => Driver.nextOf p s
    | .tryRow row => Driver.tryRowOf p row s
    | .status => Driver.status s
  else .next (s.answer .refused)

end Sys2Proof.Machine
end

