-- ==== Sys2Proof/Machine/Step.lean ====
section
/-! DEFINITION. One step: the host operation at the head of `ops`, performed atomically (00_scope.md rule R7). -/

namespace Sys2Proof.Machine

/-- One step of the reference machine. -/
def step (s : State) : Host.Outcome State Fault Refusal := Driver.stepWith Driver.perform s

/-- One step of an instance with parameters `p` (00_scope.md rule R8). -/
def stepOf (p : Params) (s : State) : Host.Outcome State Fault Refusal := Driver.stepWith (Driver.performOf p) s

/-- The state in which an opcode-table word is the image just loaded, with the cursor at its first byte, and NEXT is the
operation the host issues now (assumption 8). -/
def State.withFetchWord (s : State) (nbits w : Nat) : State :=
  s.placeAndIssueNext (tableWordBytes nbits w)

end Sys2Proof.Machine
end

