-- ==== Sys2Proof/Machine/Render.lean ====
section
/-! DEFINITION. The text output (44_rendering.md): a pure function of a response, of the replies and of the error
channel. It writes no state. -/

namespace Sys2Proof.Machine

/-- The mnemonic of a tag (rule R134). `none` is never rendered (40_operand_model.md rule R79), nor is an unassigned code,
which no accepted table has (30_encoding.md rule R54). -/
def Tag.mnemonic : Tag → String
  | .none => ""
  | .mov => "mov"
  | .push => "push"
  | .pop => "pop"
  | .xchg => "xchg"
  | .inp => "in"
  | .outp => "out"
  | .xlat => "xlat"
  | .lea => "lea"
  | .lds => "lds"
  | .les => "les"
  | .lahf => "lahf"
  | .sahf => "sahf"
  | .pushf => "pushf"
  | .popf => "popf"
  | .add => "add"
  | .adc => "adc"
  | .inc => "inc"
  | .aaa => "aaa"
  | .daa => "daa"
  | .sub => "sub"
  | .sbb => "sbb"
  | .dec => "dec"
  | .neg => "neg"
  | .cmp => "cmp"
  | .aas => "aas"
  | .das => "das"
  | .mul => "mul"
  | .imul => "imul"
  | .aam => "aam"
  | .div => "div"
  | .idiv => "idiv"
  | .aad => "aad"
  | .cbw => "cbw"
  | .cwd => "cwd"
  | .unassigned _ => ""

/-- The name of a general register by index and width (rule R135, 30_encoding.md rule R62). -/
def regName (index : Reg3) (wide : Bool) : String :=
  (if wide then ["ax", "cx", "dx", "bx", "sp", "bp", "si", "di"]
   else ["al", "cl", "dl", "bl", "ah", "ch", "dh", "bh"]).getD index.toNat ""

/-- The name of a segment register (rule R136, 30_encoding.md rule R63). -/
def segName (index : Seg2) : String := ["es", "cs", "ss", "ds"].getD index.toNat ""

/-- The text of a base/index expression (rule R137, 30_encoding.md rule R64). -/
def eaText (rm : Reg3) : String :=
  ["bx + si", "bx + di", "bp + si", "bp + di", "si", "di", "bp", "bx"].getD rm.toNat ""

/-- A natural number in decimal. -/
def decimal (n : Nat) : String := String.ofList (Nat.toDigits 10 n)

/-- A signed integer in decimal (rule R138). -/
def signedDecimal (v : Int) : String := if v < 0 then "-" ++ decimal v.natAbs else decimal v.natAbs

/-- The text of a displacement read as a signed 16-bit integer: nothing for 0 (rule R137). -/
def dispText (disp : Word) : String :=
  let d := disp.toInt
  if 0 < d then " + " ++ decimal d.natAbs
  else if d < 0 then " - " ++ decimal d.natAbs
  else ""

/-- The text of a memory operand, with no prefix (rule R137). -/
def memText : Ea → Word → String
  | .base rm, disp => "[" ++ eaText rm ++ dispText disp ++ "]"
  | .direct, disp => "[" ++ decimal disp.toNat ++ "]"

/-- The text of an immediate: a narrow one is its low byte, signed (rule R138). -/
def immText (value : Word) (wide : Bool) : String :=
  if wide then "word " ++ signedDecimal value.toInt else "byte " ++ signedDecimal (lowByte value).toInt

/-- Whether a tag forces `byte ` or `word ` before a memory operand (rule R139). -/
def forcesWidth (t : Tag) : Bool :=
  [Tag.push, .pop, .inc, .dec, .neg, .mul, .imul, .div, .idiv].contains t

/-- The text of an operand; none for `None` (rules R135 to R140). -/
def operandText (t : Tag) (w : Bool) : Operand → Option String
  | .none => none
  | .reg index wide => some (regName index wide)
  | .seg index => some (segName index)
  | .imm value wide => some (immText value wide)
  | .mem ea disp =>
    some ((if forcesWidth t then (if w then "word " else "byte ") else "") ++ memText ea disp)

/-- The line of an instruction, less its end (rules R132 and R133). -/
def instrText (i : Decoded) (w : Bool) : String :=
  match operandText i.tag w i.slot0, operandText i.tag w i.slot1 with
  | none, none => Tag.mnemonic i.tag
  | some a, none => Tag.mnemonic i.tag ++ " " ++ a
  | none, some b => Tag.mnemonic i.tag ++ " " ++ b
  | some a, some b => Tag.mnemonic i.tag ++ " " ++ a ++ ", " ++ b

/-- `render`: the line of a response, none unless its outcome is `INSTR` (rule R132). -/
def Response.render : Response → Option String
  | .instr i w _ _ => some (instrText i w)
  | .endOfStream => none
  | .noMatch => none
  | .fatal => none
  | .refused => none

/-- The line a reply puts on the output channel: the decode loop prints the responses of NEXT, no others
(43_stream_driver.md rule R130). -/
def Reply.line : Reply → Option String
  | .next r => r.render
  | .loaded => none
  | .resetDone => none
  | .tried _ => none
  | .status _ _ _ _ _ => none
  | .refused => none

/-- The lines on the output channel, oldest first (43_stream_driver.md rule R130). -/
def State.outputLines (s : State) : List String := s.replies.filterMap Reply.line

/-- The output channel as text: each line ends in one newline (rule R132). -/
def State.outputText (s : State) : String := (s.outputLines.map (· ++ "\n")).foldr (· ++ ·) ""

/-- The lines on the error channel under a `DIAG_TEXT`, oldest first (rule R142). -/
def State.errorLines (text : Nat → Byte → String) (s : State) : List String := s.err.map fun d => text d.pos d.byte

/-- An upper-case hexadecimal digit. -/
def hexDigit (v : BitVec 4) : String :=
  ["0", "1", "2", "3", "4", "5", "6", "7", "8", "9", "A", "B", "C", "D", "E", "F"].getD v.toNat ""

/-- The reference value of `DIAG_TEXT` (rule R142). -/
def refDiagText (pos : Nat) (b : Byte) : String :=
  "unrecognized instruction at offset " ++ decimal pos ++ ": " ++ hexDigit (b.extractLsb' 4 4) ++
    hexDigit (b.extractLsb' 0 4)

end Sys2Proof.Machine
end

