-- ==== Sys2Proof/Machine/Loop.lean ====
section
/-! DEFINITION. The decode loop and the end of a run (43_stream_driver.md rules R129 and R130): the host's loop around the
FTD, over the step of the reference machine or of any instance. -/

namespace Sys2Proof.Machine

/-- The end of a run of the decode loop (43_stream_driver.md rule R130). -/
inductive RunEnd where
  /-- `END`: success. -/
  | success
  /-- `NOMATCH`: failure, with `CUR`, the offset of the unmatched bytes. -/
  | unmatched (pos : Nat)
  /-- `FATAL`: failure, with `FATAL_POS`, the offset of the missing byte. -/
  | missing (pos : Nat)
  /-- `REFUSED`: the instance holds an ill-formed table (60_exceptions.md rule R212). -/
  | refused
  deriving DecidableEq, Repr

/-- What a run of the decode loop leaves: the lines it put on the output channel, its end, and the state. -/
structure Run where
  lines  : List String
  finish : RunEnd
  state  : State
  deriving DecidableEq, Repr

/-- The end of the run that a reply to NEXT is, in the state after it: none where the outcome is `INSTR`, after which the
loop goes on, and for a reply that is no reply to NEXT (43_stream_driver.md rule R130). -/
def Reply.runEnd (t : State) : Reply → Option RunEnd
  | .next (.instr _ _ _ _) => none
  | .next .endOfStream => some .success
  | .next .noMatch => some (.unmatched t.cur)
  | .next .fatal => some (.missing t.fatalPos)
  | .next .refused => some .refused
  | .refused => some .refused
  | .loaded => none
  | .resetDone => none
  | .tried _ => none
  | .status _ _ _ _ _ => none

/-- The line of an instruction the loop has printed, before those of the rest of the run. -/
def Run.after (line : String) (r : Run) : Run := { r with lines := line :: r.lines }

/-- The decode loop of at most `fuel` NEXTs (43_stream_driver.md rule R130): the host issues NEXT, prints the line of an
`INSTR` and goes on, and ends the run at any other outcome. None where `fuel` is used up, or where a step stops. -/
def decodeLoop (run : State → Result) : Nat → State → Option Run
  | 0, _ => none
  | fuel + 1, s =>
    match run (s.issue .next) with
    | .fault _ => none
    | .refused _ => none
    | .next t =>
      match t.replies.getLast? with
      | none => none
      | some r =>
        match r.runEnd t, r.line with
        | some e, _ => some ⟨[], e, t⟩
        | none, some line => (decodeLoop run fuel t).map (Run.after line)
        | none, none => none

/-- A whole run (43_stream_driver.md rule R130): LOAD, then the loop; by rule R129 at most `LEN` NEXTs succeed, so
`LEN + 1` NEXTs are enough. -/
def decodeImage (run : State → Result) (bytes : List Byte) (s : State) : Option Run :=
  match run (s.issue (.load bytes)) with
  | .fault _ => none
  | .refused _ => none
  | .next t => decodeLoop run (t.len + 1) t

end Sys2Proof.Machine
end

