-- ==== Sys2Proof/Safety.lean ====
section
/-! DEFINITION. What a sound state of the FTD is, and the words the statements of Certificates/Slice0 are written in:
when an operation is issued, which bytes stand at the cursor, and the states an operation leaves. Each after-state is a
record written out from the rule, not a call of the model's own operations. -/

namespace Sys2Proof.Machine

/-! ### The invariant -/

/-- The invariant of the FTD. -/
structure State.Sound (s : State) : Prop where
  /-- `BUF` holds a value at exactly the offsets below `LEN`, in canonical form (10_state.md rules R15 and R16). -/
  buffer : s.buf.map Prod.fst = List.range s.len
  /-- `LEN ≤ INPUT_CAPACITY` (rule R16). -/
  capacity : s.len ≤ Config.inputCapacity
  /-- `CUR ≤ LEN` (rule R17). -/
  cursor : s.cur ≤ s.len
  /-- `LGP ≤ CUR` (rules R18 and R230). -/
  lastGood : s.lgp ≤ s.cur
  /-- In the state `FATAL` the recorded position is the end of the input: the first offset at or above `LEN` that the
  attempt tried to read (60_exceptions.md rule R207). -/
  fatal : s.status = .fatal → s.fatalPos = s.len

/-! ### What is issued, and what stands at the cursor -/

/-- The host has issued NEXT, and the FTD is not in the state `FATAL`. -/
abbrev State.NextIssued (s : State) : Prop := s.ops.head? = some .next ∧ s.status ≠ .fatal

/-- The host has issued TRY(`row`), and the FTD is not in the state `FATAL`. -/
abbrev State.TryIssued (row : Nat) (s : State) : Prop := s.ops.head? = some (.tryRow row) ∧ s.status ≠ .fatal

/-- The bytes that stand from offset `a` on begin with these. -/
def readerHolds (rd : Reader) : Nat → List Byte → Bool
  | _, [] => true
  | a, b :: bs => rd a == .byte b && readerHolds rd (a + 1) bs

/-- The bytes at the cursor begin with these. -/
abbrev State.Holds (s : State) (bytes : List Byte) : Prop := readerHolds s.reader s.cur bytes = true

/-- The bytes at the cursor are these, and the input ends after them. -/
abbrev State.HoldsOnly (s : State) (bytes : List Byte) : Prop := s.Holds bytes ∧ s.len = s.cur + bytes.length

/-! ### After-states

Each says of every field what it holds after. Where a rule writes no `FATAL_POS`, that the register keeps its value while
`STATUS` is not `FATAL` is the model's choice (assumption 3); that a line of the error channel is its cursor and byte is
read from the spec by inference (assumption 6). -/

/-- After a NEXT that answers `r` and writes no register (43_stream_driver.md rule R121). -/
def afterNextReply (s : State) (r : Response) : State :=
  { s with ops := s.ops.tail, replies := s.replies ++ [.next r] }

/-- After a TRY that answers `r` and writes no register (42_decoder.md rule R116). -/
def afterTryReply (s : State) (r : Response) : State :=
  { s with ops := s.ops.tail, replies := s.replies ++ [.tried r] }

/-- After a successful NEXT (43_stream_driver.md rule R124): `CUR` and `LGP` just past the instruction, `STATUS` `READY`,
the response; every other field as before. -/
def afterNext (s : State) (i : Decoded) (w : Bool) (len row : Nat) : State :=
  { s with
    cur := s.cur + len, lgp := s.cur + len, status := .ready,
    ops := s.ops.tail, replies := s.replies ++ [.next (.instr i w len row)] }

/-- After a successful TRY (42_decoder.md rule R116): `CUR` just past the instruction, the response; every other field,
`LGP` and `STATUS` among them, as before. -/
def afterTry (s : State) (i : Decoded) (w : Bool) (len row : Nat) : State :=
  { s with cur := s.cur + len, ops := s.ops.tail, replies := s.replies ++ [.tried (.instr i w len row)] }

/-- After a NEXT that raised `TRUNCATED(a)` (60_exceptions.md rule R207). -/
def afterNextTruncated (s : State) (a : Nat) : State :=
  { s with status := .fatal, fatalPos := a, ops := s.ops.tail, replies := s.replies ++ [.next .fatal] }

/-- After a TRY that raised `TRUNCATED(a)` (42_decoder.md rule R116). -/
def afterTryTruncated (s : State) (a : Nat) : State :=
  { s with status := .fatal, fatalPos := a, ops := s.ops.tail, replies := s.replies ++ [.tried .fatal] }

/-- After a NEXT that no row matched, with the byte `b` at `CUR` (43_stream_driver.md rule R125). -/
def afterNextNoMatch (s : State) (b : Byte) : State :=
  { s with
    status := .noMatch, err := s.err ++ [⟨s.cur, b⟩],
    ops := s.ops.tail, replies := s.replies ++ [.next .noMatch] }

/-! ### Which tables are ill-formed -/

/-- A table breaks one of the checks WF1 to WF8 (30_encoding.md rules R47 to R54): each case is the rule's own condition
on the table, failed, with no function of the model's own check. -/
inductive TableFails (maxFields : Nat) (t : List Row) : WfCheck → Prop
  /-- Rule R47: a row whose first descriptor is no `LIT` with `n ≥ 1`, or that has none. -/
  | wf1 (r : Row) (h : r ∈ t) (hf : ∀ d rest, r.fields = d :: rest → d.kind ≠ .lit ∨ d.n = 0) : TableFails maxFields t .wf1
  /-- Rule R48: a row with no descriptor or with more than `MAX_FIELDS`. -/
  | wf2 (r : Row) (h : r ∈ t) (hf : r.fields.length = 0 ∨ maxFields < r.fields.length) : TableFails maxFields t .wf2
  /-- Rule R49: a kind code above 13, `n` above 8 or a value of 256 or more. -/
  | wf3 (r : Row) (d : Descriptor) (h : r ∈ t) (hd : d ∈ r.fields)
      (hf : 13 < d.kind.code ∨ 8 < d.n ∨ 256 ≤ d.value) : TableFails maxFields t .wf3
  /-- Rule R50: a descriptor whose first and last bit, by the running sum, lie in different bytes. -/
  | wf4Straddle (r : Row) (before : List Descriptor) (d : Descriptor) (after : List Descriptor) (h : r ∈ t)
      (hr : r.fields = before ++ d :: after) (hn : 0 < d.n)
      (hf : (before.map Descriptor.n).sum / 8 ≠ ((before.map Descriptor.n).sum + d.n - 1) / 8) :
      TableFails maxFields t .wf4
  /-- Rule R50: a total that is no multiple of 8. -/
  | wf4Total (r : Row) (h : r ∈ t) (hf : (r.fields.map Descriptor.n).sum % 8 ≠ 0) : TableFails maxFields t .wf4
  /-- Rule R51: a `LIT` with `n = 0` or a value of `2^n` or more. -/
  | wf5Literal (r : Row) (d : Descriptor) (h : r ∈ t) (hd : d ∈ r.fields) (hk : d.kind = .lit)
      (hf : d.n = 0 ∨ 2 ^ d.n ≤ d.value) : TableFails maxFields t .wf5
  /-- Rule R51: another descriptor with `n > 0` that has not the width of its kind, or whose kind has none. -/
  | wf5Field (r : Row) (d : Descriptor) (h : r ∈ t) (hd : d ∈ r.fields) (hk : d.kind ≠ .lit) (hn : 0 < d.n)
      (hf : (d.kind, d.n) ∉
        [(FieldKind.mod, 2), (.reg, 3), (.rm, 3), (.d, 1), (.w, 1), (.s, 1), (.sr, 2)]) : TableFails maxFields t .wf5
  /-- Rule R52: a kind other than `LIT` twice in a row with `n > 0`. -/
  | wf6 (r : Row) (before : List Descriptor) (d : Descriptor) (between : List Descriptor) (e : Descriptor)
      (after : List Descriptor) (h : r ∈ t) (hr : r.fields = before ++ d :: between ++ e :: after)
      (hk : d.kind ≠ .lit) (he : e.kind = d.kind) (hd : 0 < d.n) (hn : 0 < e.n) : TableFails maxFields t .wf6
  /-- Rule R53: an implied descriptor whose value is above the greatest of its kind. -/
  | wf7 (r : Row) (d : Descriptor) (greatest : Nat) (h : r ∈ t) (hd : d ∈ r.fields) (hn : d.n = 0)
      (hk : (d.kind, greatest) ∈
        [(FieldKind.mod, 3), (.reg, 7), (.rm, 7), (.d, 1), (.w, 1), (.s, 1), (.sr, 3), (.dispWFlag, 1), (.hasData, 1),
         (.dataWFollowsW, 1), (.rmAlwaysW, 1), (.disp, 0), (.data, 0)])
      (hf : greatest < d.value) : TableFails maxFields t .wf7
  /-- Rule R54: no row. -/
  | wf8Empty (hf : t = []) : TableFails maxFields t .wf8
  /-- Rule R54: a row whose tag is no code 1 to 34. -/
  | wf8Tag (r : Row) (h : r ∈ t) (hf : r.tag.code < 1 ∨ 34 < r.tag.code) : TableFails maxFields t .wf8

/-! ### Signed values -/

/-- `s8(b)` of the low byte of a value (00_scope.md rule R10). -/
def signedLowByte (v : Word) : Int :=
  if v.toNat % 256 < 0x80 then (v.toNat % 256 : Nat) else (v.toNat % 256 : Nat) - 0x100

/-- `s16(v)` (00_scope.md rule R10). -/
def signedWord (v : Word) : Int := if v.toNat < 0x8000 then v.toNat else v.toNat - 0x10000

/-! ### What the ten steps give -/

/-- The reg-like operand of a field map, where it has one: `SR` before `REG` (42_decoder.md rule R109). -/
def regLikeOf (m : FieldMap) : Option Operand :=
  if (m .sr).isSome then some (.seg ((m.val .sr).setWidth 2))
  else if (m .reg).isSome then some (.reg ((m.val .reg).setWidth 3) (m.val .w == 1))
  else none

/-- The mod-like operand of a field map, where it has one (42_decoder.md rule R110). -/
def modLikeOf (m : FieldMap) (disp : Word) : Option Operand :=
  if (m .rm).isSome then
    if m.val .mod = 3 then some (.reg ((m.val .rm).setWidth 3) (m.val .w == 1 || m.rmAlwaysWide))
    else if m.val .mod = 0 ∧ m.val .rm = 6 then some (.mem .direct disp)
    else some (.mem (.base ((m.val .rm).setWidth 3)) disp)
  else none

/-- The immediate operand, or `None` where the row has no data (42_decoder.md rule R112). -/
def dataOperandOf (p : Parsed) : Operand := if p.map.hasData then .imm p.data p.dataWide else .none

/-- What NEXT replies for an instruction: TRY_CORE's match of its row on its own encoding (43_stream_driver.md rule
R124). -/
def replyOf (i : Instr) : Reply :=
  match tryCore (listReader (encode i)) 0 i.rowId.row with
  | .matched m => .next (.instr m.instr m.w m.stop i.rowId.index)
  | .noMatch => .next .noMatch
  | .truncated _ => .next .fatal
  | .noValue _ => .next .fatal

/-! ### What a row's rule says -/

/-- A literal bit of the row differs: of its first byte, or, with its two descriptor bytes at the cursor, of either. -/
def State.literalDiffers (s : State) (r : RowId) : Prop :=
  ∃ first, s.reader s.cur = .byte first ∧
    (r.opcodeMask.firstFits first = false ∨
      (r.opcodeMask.bytes = 2 ∧ ∃ second, s.reader (s.cur + 1) = .byte second ∧ r.opcodeMask.fits first second = false))

/-- What the rule of a row says of one of its instructions (45_fmt_data_transfer.md, 46_fmt_arithmetic.md): `fields` are
the row's descriptors, `bytes` is the instruction's encoding, `dec` its tag and slots, `w` its side-band, `row` the
row's index in `REF_TABLE`. The after-states are those of NEXT (43_stream_driver.md rule R124), of TRY (42_decoder.md rule
R116) and of a truncation (60_exceptions.md rule R207), with `FATAL_POS` as assumption 3 has it. -/
structure RowGives (i : Instr) (fields : List Descriptor) (bytes : List Byte) (dec : Decoded) (w : Bool) (row : Nat) :
    Prop where
  /-- The row at that index has the tag and these descriptors. -/
  descriptors : refTable[row]? = some ⟨dec.tag, fields⟩
  /-- Its meaning completes a NEXT. -/
  execNext : ∀ s : State, s.ops.head? = some .next → exec i s = .next (afterNext s dec w bytes.length row)
  /-- Its meaning completes a TRY. -/
  execTry : ∀ (s : State) (k : Nat), s.ops.head? = some (.tryRow k) →
    exec i s = .next (afterTry s dec w bytes.length row)
  /-- With its encoding at the cursor, NEXT answers it. -/
  next : ∀ s : State, s.NextIssued → s.Holds bytes → step s = .next (afterNext s dec w bytes.length row)
  /-- With its encoding at the cursor, TRY of its row answers it. -/
  tried : ∀ s : State, s.TryIssued row → s.Holds bytes → step s = .next (afterTry s dec w bytes.length row)
  /-- Where the input ends inside its encoding, after at least one byte, NEXT answers `FATAL` and records the end. -/
  nextTruncated : ∀ (s : State) (n : Nat), s.NextIssued → 0 < n → n < bytes.length → s.HoldsOnly (bytes.take n) →
    step s = .next (afterNextTruncated s (s.cur + n))
  /-- Where the input ends inside its encoding, or before it, TRY of its row answers `FATAL` and records the end. -/
  tryTruncated : ∀ (s : State) (n : Nat), s.TryIssued row → n < bytes.length → s.HoldsOnly (bytes.take n) →
    step s = .next (afterTryTruncated s (s.cur + n))
  /-- Where a literal bit differs, TRY of its row answers `NOMATCH`. -/
  tryNoMatch : ∀ s : State, s.TryIssued row → s.literalDiffers i.rowId →
    step s = .next (afterTryReply s .noMatch)

end Sys2Proof.Machine
end

