-- ==== Sys2Proof/Certificates/Slice0/Obligations.lean ====
section
/-! DEFINITION. The statements for the provers. Each cites the rule of spec/ it formalises. A statement that rests on a
choice of the model names the log entry. -/

open Sys2Proof Sys2Proof.Machine

/-! ### Power-on, LOAD, RESET, STATUS -/

/-- 10_state.md rule R27, the table of reset values: power-on, RESET and LOAD, every element. `FATAL_POS` is unspecified
in all three and no claim is made of it; `TABLE` is configuration and never changes. -/
def Obligations.ResetAndLoadValues : Prop :=
  (State.reset.buf = [] ∧ State.reset.len = 0 ∧ State.reset.cur = 0 ∧ State.reset.lgp = 0 ∧
    State.reset.status = .ready) ∧
  (∀ (s : State) (rest : List HostOp), s.ops = .reset :: rest →
    ∃ t, step s = .next t ∧ t.buf = s.buf ∧ t.len = s.len ∧ t.cur = 0 ∧ t.lgp = 0 ∧ t.status = .ready) ∧
  (∀ (s : State) (rest : List HostOp) (bytes : List Byte), s.ops = .load bytes :: rest →
    ∃ t, step s = .next t ∧
      (∀ a, Memory.read t.buf a = if a < Config.inputCapacity then bytes[a]? else none) ∧
      t.len = min bytes.length Config.inputCapacity ∧ t.cur = 0 ∧ t.lgp = 0 ∧ t.status = .ready)

/-- 43_stream_driver.md rule R119: RESET writes `CUR`, `LGP` and `STATUS`, and leaves `BUF` and `LEN` (and the error
channel) as they were; and besides LOAD it is the only way out of `FATAL`. -/
def Obligations.ResetRestartsTheImage : Prop :=
  (∀ (s : State) (rest : List HostOp), s.ops = .reset :: rest →
    ∃ t, step s = .next t ∧ t.cur = 0 ∧ t.lgp = 0 ∧ t.status = .ready ∧ t.buf = s.buf ∧ t.len = s.len ∧
      t.err = s.err ∧ t.ops = rest ∧ t.replies = s.replies ++ [.resetDone]) ∧
  (∀ s t : State, s.status = .fatal → step s = .next t → t.status ≠ .fatal →
    s.ops.head? = some .reset ∨ ∃ bytes, s.ops.head? = some (.load bytes))

/-- 43_stream_driver.md rule R118: LOAD replaces the whole buffer, drops bytes beyond the capacity, never faults, and
what it stores is in canonical form. -/
def Obligations.LoadReplacesTheBuffer : Prop :=
  ∀ (s : State) (rest : List HostOp) (bytes : List Byte), s.ops = .load bytes :: rest →
    ∃ t, step s = .next t ∧
      (∀ a, a < min bytes.length 262144 → Memory.read t.buf a = bytes[a]?) ∧
      (∀ a, min bytes.length 262144 ≤ a → Memory.read t.buf a = none) ∧
      Memory.wf t.buf = true ∧ t.len = min bytes.length 262144 ∧ t.cur = 0 ∧ t.lgp = 0 ∧ t.status = .ready ∧
      t.err = s.err ∧ t.ops = rest ∧ t.replies = s.replies ++ [.loaded]

/-- 43_stream_driver.md rule R127: STATUS reports `STATUS`, `CUR`, `LGP`, `LEN`, and `FATAL_POS` when `STATUS = FATAL`,
and changes nothing. -/
def Obligations.StatusReportsAndChangesNothing : Prop :=
  ∀ (s : State) (rest : List HostOp), s.ops = .status :: rest →
    (s.status = .fatal →
      step s = .next { s with ops := rest, replies := s.replies ++ [.status .fatal s.cur s.lgp s.len (some s.fatalPos)] }) ∧
    (s.status ≠ .fatal →
      step s = .next { s with ops := rest, replies := s.replies ++ [.status s.status s.cur s.lgp s.len none] })

/-! ### NEXT -/

/-- 43_stream_driver.md rule R121: in the state `FATAL`, NEXT changes nothing and responds `FATAL` with the null
instruction. -/
def Obligations.NextWhileFatal : Prop :=
  ∀ s : State, s.ops.head? = some .next → s.status = .fatal →
    step s = .next (afterNextReply s .fatal) ∧ Response.fatal.instruction = Decoded.null

/-- 43_stream_driver.md rule R122: at or past the end of the input NEXT responds `END` with the null instruction and
sets `STATUS` to `READY`; repeated, it keeps responding `END`. That `FATAL_POS` keeps its value while `STATUS` is not
`FATAL` is the model's choice (assumption 3). -/
def Obligations.NextAtTheEnd : Prop :=
  ∀ s : State, s.NextIssued → s.len ≤ s.cur →
    step s = .next { afterNextReply s .endOfStream with status := .ready } ∧
      Response.endOfStream.instruction = Decoded.null ∧
      ∀ t : State, step s = .next t → t.ops.head? = some .next →
        step t = .next { afterNextReply t .endOfStream with status := .ready }

/-- 43_stream_driver.md rule R123, for every table an instance accepts: the rows are tried in order, each from the same
`CUR`, and the first that does not end in `NOMATCH` decides, a truncated one before any later match. That `FATAL_POS`
keeps its value while `STATUS` is not `FATAL` is the model's choice (assumption 3). -/
def Obligations.FirstRowInOrderDecides : Prop :=
  ∀ (p : Params) (s : State) (before : List Row) (r : Row) (after : List Row),
    p.tableAccepted = true → s.NextIssued → s.cur < s.len → p.formatTable = before ++ r :: after →
    (∀ q ∈ before, tryCore s.reader s.cur q = .noMatch) →
    (∀ m, tryCore s.reader s.cur r = .matched m →
      stepOf p s = .next (afterNext s m.instr m.w (m.stop - s.cur) before.length)) ∧
    (∀ a, tryCore s.reader s.cur r = .truncated a → stepOf p s = .next (afterNextTruncated s a))

/-- 43_stream_driver.md rule R124: a match sets `CUR` and `LGP` to `end` and `STATUS` to `READY`, and is answered with
the instruction, `w`, `len = end - CUR` and the row; `len ≥ 1` and `end ≤ LEN`. That `FATAL_POS` keeps its value while
`STATUS` is not `FATAL` is the model's choice (assumption 3). -/
def Obligations.NextCommitsTheMatch : Prop :=
  ∀ (s : State) (i : Instr) (stop : Nat), s.NextIssued → s.cur < s.len →
    decodeAt s.reader s.cur = .matched (i, stop) →
    ∃ m, tryCore s.reader s.cur i.rowId.row = .matched m ∧ m.stop = stop ∧
      step s = .next (afterNext s m.instr m.w (stop - s.cur) i.rowId.index) ∧ 1 ≤ stop - s.cur ∧ stop ≤ s.len

/-- 43_stream_driver.md rule R125: when no row matches, NEXT sets `STATUS` to `NOMATCH`, leaves `CUR` and `LGP`, puts
one line on the error channel and responds `NOMATCH` with the null instruction. That `FATAL_POS` keeps its value while
`STATUS` is not `FATAL` is the model's choice (assumption 3), and that the line is its cursor and byte is an inference
(assumption 6). -/
def Obligations.NextWithNoMatchingRow : Prop :=
  ∀ s : State, s.NextIssued → s.cur < s.len → decodeAt s.reader s.cur = .noMatch →
    ∃ b, s.reader s.cur = .byte b ∧ step s = .next (afterNextNoMatch s b) ∧
      Response.noMatch.instruction = Decoded.null

/-- 43_stream_driver.md rule R126: a NEXT issued after a NEXT that responded `NOMATCH` responds `NOMATCH` again, from
the same `CUR`, with the same diagnostic. -/
def Obligations.NoMatchRepeats : Prop :=
  ∀ (s t : State) (rest : List HostOp), s.ops = .next :: .next :: rest → step s = .next t →
    t.replies = s.replies ++ [.next .noMatch] →
    ∃ u d, step t = .next u ∧ u.replies = t.replies ++ [.next .noMatch] ∧ u.cur = s.cur ∧ u.lgp = s.lgp ∧
      u.status = .noMatch ∧ t.err = s.err ++ [d] ∧ u.err = s.err ++ [d, d]

/-! ### TRY -/

/-- 42_decoder.md rule R116: TRY of a row in the state `FATAL`, with a match, with no match, and truncated; at the end
of the input or past it, where TRY makes no end-of-stream check and raises `TRUNCATED(CUR)`; and TRY of an index that is
no row's, which is refused (in the state `FATAL` rule R209 of 60_exceptions.md speaks too, and the answer is one of the
two: assumption 5). That `FATAL_POS` keeps its value while `STATUS` is not `FATAL` is the model's choice (assumption 3).
-/
def Obligations.TryRowOutcomes : Prop :=
  ∀ (s : State) (k : Nat), s.ops.head? = some (.tryRow k) →
    (∀ r : RowId, r.index = k →
      (s.status = .fatal → step s = .next (afterTryReply s .fatal)) ∧
      (s.status ≠ .fatal →
        (∀ m, tryCore s.reader s.cur r.row = .matched m →
          step s = .next (afterTry s m.instr m.w (m.stop - s.cur) k)) ∧
        (tryCore s.reader s.cur r.row = .noMatch → step s = .next (afterTryReply s .noMatch)) ∧
        (∀ a, tryCore s.reader s.cur r.row = .truncated a → step s = .next (afterTryTruncated s a)) ∧
        (s.len ≤ s.cur → step s = .next (afterTryTruncated s s.cur)))) ∧
    (59 ≤ k →
      (s.status ≠ .fatal → step s = .next (afterTryReply s .refused)) ∧
      (s.status = .fatal →
        step s = .next (afterTryReply s .fatal) ∨ step s = .next (afterTryReply s .refused)))

/-! ### Errors -/

/-- 60_exceptions.md rule R207: when the scan of NEXT, or the attempt of TRY, raises `TRUNCATED(a)`, `STATUS` is `FATAL`
and `FATAL_POS` is `a`, the response is `FATAL` with the null instruction, and nothing else changes; and `a` is the
first offset at or above `LEN` that was read: every offset from `CUR` up to it holds a byte. -/
def Obligations.TruncationIsRecorded : Prop :=
  ∀ s : State, Response.fatal.instruction = Decoded.null ∧
    (∀ a, s.NextIssued → s.cur < s.len → decodeAt s.reader s.cur = .truncated a →
      step s = .next (afterNextTruncated s a) ∧ s.len ≤ a ∧
        ∀ k, s.cur ≤ k → k < a → ∃ b, s.reader k = .byte b) ∧
    (∀ (r : RowId) (a : Nat), s.TryIssued r.index → decodeRow s.reader s.cur r = .truncated a →
      step s = .next (afterTryTruncated s a) ∧ s.len ≤ a ∧
        ∀ k, s.cur ≤ k → k < a → ∃ b, s.reader k = .byte b)

/-- 60_exceptions.md rule R209: in the state `FATAL`, NEXT and TRY respond `FATAL` and change nothing, STATUS answers,
and LOAD and RESET, alone, clear it. For a TRY with a bad row index rule R212 speaks too, and the answer is one of the
two (assumption 5). -/
def Obligations.FatalIsSticky : Prop :=
  ∀ (s : State) (op : HostOp) (rest : List HostOp), s.status = .fatal → s.ops = op :: rest →
    (op = .next → step s = .next (afterNextReply s .fatal)) ∧
    (∀ k, op = .tryRow k → k < 59 → step s = .next (afterTryReply s .fatal)) ∧
    (∀ k, op = .tryRow k → 59 ≤ k →
      step s = .next (afterTryReply s .fatal) ∨ step s = .next (afterTryReply s .refused)) ∧
    (op = .status →
      step s = .next { s with ops := rest, replies := s.replies ++ [.status .fatal s.cur s.lgp s.len (some s.fatalPos)] }) ∧
    (op = .reset → ∃ t, step s = .next t ∧ t.status = .ready) ∧
    (∀ bytes, op = .load bytes → ∃ t, step s = .next t ∧ t.status = .ready)

/-- 60_exceptions.md rule R210: every error outcome is precise. A NEXT or a TRY adds its response to the replies already
there, which all stay as they were; and where its outcome is not `INSTR`, `CUR` and `LGP` hold the values they had and
the buffer is as it was. -/
def Obligations.ErrorsArePrecise : Prop :=
  ∀ (s t : State) (op : HostOp) (rest : List HostOp), s.ops = op :: rest → step s = .next t →
    (op = .next → ∃ r, t.replies = s.replies ++ [.next r] ∧
      (r.code ≠ 0 → t.cur = s.cur ∧ t.lgp = s.lgp ∧ t.buf = s.buf ∧ t.len = s.len)) ∧
    (∀ k, op = .tryRow k → ∃ r, t.replies = s.replies ++ [.tried r] ∧
      (r.code ≠ 0 → t.cur = s.cur ∧ t.lgp = s.lgp ∧ t.buf = s.buf ∧ t.len = s.len))

/-- 10_state.md rule R19: `STATUS` is `READY` after power-on, RESET, LOAD, a successful NEXT and a clean end of stream,
`NOMATCH` after a NEXT that no row matched, and `FATAL` after an attempt that read past `LEN`, of NEXT or of TRY; no
other operation writes it, and only LOAD and RESET clear `FATAL`. -/
def Obligations.StatusRecordsTheLastNext : Prop :=
  State.reset.status = .ready ∧
  ∀ (s t : State) (op : HostOp) (rest : List HostOp), s.ops = op :: rest → step s = .next t →
    (op = .reset → t.status = .ready) ∧
    (∀ bytes, op = .load bytes → t.status = .ready) ∧
    (op = .status → t.status = s.status) ∧
    (∀ k, op = .tryRow k →
      (t.replies = s.replies ++ [.tried .fatal] → t.status = .fatal) ∧
      (t.replies ≠ s.replies ++ [.tried .fatal] → t.status = s.status)) ∧
    (op = .next →
      (∃ i w len row, t.replies = s.replies ++ [.next (.instr i w len row)] ∧ t.status = .ready) ∨
      (t.replies = s.replies ++ [.next .endOfStream] ∧ t.status = .ready) ∨
      (t.replies = s.replies ++ [.next .noMatch] ∧ t.status = .noMatch) ∨
      (t.replies = s.replies ++ [.next .fatal] ∧ t.status = .fatal)) ∧
    (s.status = .fatal → t.status ≠ .fatal → op = .reset ∨ ∃ bytes, op = .load bytes)

/-! ### The registers over any step -/

/-- 10_state.md rules R15 and R16: `BUF` and `LEN` are written only by LOAD. -/
def Obligations.BufferWrittenOnlyByLoad : Prop :=
  ∀ s t : State, step s = .next t → (∀ bytes, s.ops.head? ≠ some (.load bytes)) → t.buf = s.buf ∧ t.len = s.len

/-- 43_stream_driver.md rule R128: but for LOAD and RESET, `CUR` never moves backwards, and it moves only by the length
of an instruction that a NEXT or TRY returned. -/
def Obligations.CursorMovesByInstructions : Prop :=
  ∀ s t : State, step s = .next t → (∀ bytes, s.ops.head? ≠ some (.load bytes)) → s.ops.head? ≠ some .reset →
    t.cur = s.cur ∨
    ∃ i w len row, 1 ≤ len ∧ t.cur = s.cur + len ∧
      (t.replies = s.replies ++ [.next (.instr i w len row)] ∨
        t.replies = s.replies ++ [.tried (.instr i w len row)])

/-- 10_state.md rule R18: `LGP` is set to the new `CUR` by every successful NEXT and to 0 by LOAD and RESET, no other
operation writes it, TRY in particular does not, and so `LGP = CUR` stays true under every operation but TRY. -/
def Obligations.LastGoodPosition : Prop :=
  ∀ (s t : State) (op : HostOp) (rest : List HostOp), s.ops = op :: rest → step s = .next t →
    (op = .reset → t.lgp = 0) ∧
    (∀ bytes, op = .load bytes → t.lgp = 0) ∧
    (op = .status → t.lgp = s.lgp) ∧
    (∀ k, op = .tryRow k → t.lgp = s.lgp) ∧
    (op = .next →
      (∃ i w len row, t.replies = s.replies ++ [.next (.instr i w len row)] ∧ t.lgp = t.cur) ∨
      ((∀ i w len row, t.replies ≠ s.replies ++ [.next (.instr i w len row)]) ∧ t.lgp = s.lgp)) ∧
    ((∀ k, op ≠ .tryRow k) → s.lgp = s.cur → t.lgp = t.cur)

/-- 00_scope.md rule R7: each operation is one atomic step. A step performs the one operation the host has issued, and
answers it with exactly one reply; with none issued it changes nothing. -/
def Obligations.OneReplyPerOperation : Prop :=
  (∀ s : State, s.ops = [] → step s = .next s) ∧
  (∀ (s t : State) (op : HostOp) (rest : List HostOp), s.ops = op :: rest → step s = .next t →
    t.ops = rest ∧ ∃ r, t.replies = s.replies ++ [r])

/-- 10_state.md rules R15 to R18 and R230 of 70_reset_and_hazards.md: every step keeps the invariant `State.Sound`, from
every state that has it. -/
def Obligations.StepKeepsSound : Prop := ∀ s t : State, s.Sound → step s = .next t → t.Sound

/-- The state after power-on has the invariant. -/
def Obligations.ResetIsSound : Prop := State.reset.Sound

/-- 60_exceptions.md rules R211 and R213: in a sound state every operation is answered; no step stops. -/
def Obligations.SoundStateAlwaysAnswers : Prop := ∀ s : State, s.Sound → ∃ t, step s = .next t

/-! ### Decoding -/

/-- Decoding an encoded well-formed instruction, whatever follows it, gives it back with its length: no bit of any
encoding is dropped (30_encoding.md rules R61 and R65). -/
def Obligations.DecodeInvertsEncode : Prop :=
  ∀ (i : Instr) (rest : List Byte), i.wf = true → decode (encode i ++ rest) = .matched (i, (encode i).length)

/-- The other direction: bytes that decode begin with the encoding of what they decode to, which is well-formed; so
each instruction has one encoding (30_encoding.md rules R61 and R65). -/
def Obligations.EncodeInvertsDecode : Prop :=
  ∀ (bytes : List Byte) (i : Instr) (n : Nat), decode bytes = .matched (i, n) →
    i.wf = true ∧ n = (encode i).length ∧ encode i = bytes.take n

/-- A step runs the decoded instruction: where the bytes at `CUR` decode to `i`, NEXT is `exec i`, and where the bytes
at `CUR` decode to `i` by the row TRY names, TRY is `exec i`; the step adds nothing around it. -/
def Obligations.StepRunsTheDecodedInstruction : Prop :=
  ∀ (s : State) (i : Instr) (stop : Nat),
    (s.NextIssued → s.cur < s.len → decodeAt s.reader s.cur = .matched (i, stop) → step s = exec i s) ∧
    (∀ r : RowId, s.TryIssued r.index → decodeRow s.reader s.cur r = .matched (i, stop) → step s = exec i s)

/-- Every meaning completes, in every state: it answers a next state in which the buffer, `LEN`, `FATAL_POS` and the
error channel are as they were, `CUR` is past the instruction, and one reply was added; `LGP` and `STATUS` are written
unless the host has issued a TRY; and the NEXT or TRY the host has issued, and no other operation, is taken off the
list. What it does with neither issued is the model's choice (assumption 4), and so is that `FATAL_POS` keeps its value
while `STATUS` is not `FATAL` (assumption 3). -/
def Obligations.EveryMeaningCompletes : Prop :=
  ∀ (i : Instr) (s : State), ∃ t r, exec i s = .next t ∧
    (∀ a, Memory.read t.buf a = Memory.read s.buf a) ∧ t.len = s.len ∧ t.fatalPos = s.fatalPos ∧ t.err = s.err ∧
    t.freeCount = s.freeCount ∧ t.cur = s.cur + (encode i).length ∧ t.replies = s.replies ++ [r] ∧
    ((∃ k, s.ops.head? = some (.tryRow k)) → t.lgp = s.lgp ∧ t.status = s.status) ∧
    ((∀ k, s.ops.head? ≠ some (.tryRow k)) → t.lgp = t.cur ∧ t.status = .ready) ∧
    (∀ op rest, s.ops = op :: rest → (op = .next ∨ ∃ k, op = .tryRow k) → t.ops = rest) ∧
    (s.ops.head? ≠ some .next → (∀ k, s.ops.head? ≠ some (.tryRow k)) → t.ops = s.ops)

/-- 43_stream_driver.md rule R120 and 42_decoder.md rule R116: the reference machine, which decodes and executes row by
row, is the instance with the parameters of 00_scope.md rule R8, which runs the pseudocode over `REF_TABLE`. -/
def Obligations.ReferenceMachineIsTheInstance : Prop := ∀ s : State, step s = stepOf refParams s

/-- 43_stream_driver.md rule R131: a buffer that is the concatenation of the encodings of `N` instructions decodes, NEXT
by NEXT, to exactly those `N` instructions, and then to `END` with `CUR = LEN`. -/
def Obligations.ConcatenationDecodesToItsParts : Prop :=
  ∀ is : List Instr, (∀ i ∈ is, i.wf = true) → (is.flatMap encode).length ≤ Config.inputCapacity →
    ∃ t, core.run (is.length + 2)
        { State.reset with ops := .load (is.flatMap encode) :: List.replicate (is.length + 1) .next } = .next t ∧
      t.cur = t.len ∧ t.len = (is.flatMap encode).length ∧ t.status = .ready ∧
      t.replies = .loaded :: is.map replyOf ++ [.next .endOfStream]

/-! ### The table -/

/-- 60_exceptions.md rule R212: an instance whose table breaks any of WF1 to WF8 (30_encoding.md rules R47 to R54, each
stated as a condition on the table by `TableFails`) responds `REFUSED` to every operation and changes no state, and the
check that the model names is one the table breaks; an instance whose table breaks none never responds so. The reference
table breaks none (70_reset_and_hazards.md rule R224), has 59 rows (rule R65) and keeps WF9 (rule R55). That the check
is made at each operation, the table never changing, is the model's inference (assumption 13). -/
def Obligations.IllFormedTableIsRefused : Prop :=
  (∀ (p : Params) (s : State) (op : HostOp) (rest : List HostOp), s.ops = op :: rest →
    ((∃ c, TableFails p.maxFields p.formatTable c) →
      stepOf p s = .next { s with ops := rest, replies := s.replies ++ [.refused] }) ∧
    (∀ c, tableRefusedBy p.maxFields p.formatTable = some c → TableFails p.maxFields p.formatTable c) ∧
    ((¬ ∃ c, TableFails p.maxFields p.formatTable c) →
      (∀ t, stepOf p s = .next t → t.replies ≠ s.replies ++ [.refused]) ∧
      (op = .reset → ∃ t, stepOf p s = .next t ∧ t.replies = s.replies ++ [.resetDone]))) ∧
  (∀ c, ¬ TableFails 16 refTable c) ∧ refParams.formatTable = refTable ∧ refParams.maxFields = 16 ∧
  refTable.length = 59 ∧ refTable.all Row.wf9 = true

/-- 30_encoding.md rule R50 (WF4): the check holds iff no descriptor that consumes bits crosses a multiple of 8 of the
running sum and the total is a multiple of 8. -/
def Obligations.FieldsPartitionWholeBytes : Prop :=
  ∀ r : Row, r.wf4 = true ↔
    (∀ (before : List Descriptor) (d : Descriptor) (after : List Descriptor), r.fields = before ++ d :: after →
      0 < d.n →
      (before.map Descriptor.n).sum / 8 = ((before.map Descriptor.n).sum + d.n - 1) / 8) ∧
    (r.fields.map Descriptor.n).sum % 8 = 0

/-- 30_encoding.md rules R44, R45 and R46: the ROM word of a descriptor, the header word of a row, and, derived from them,
a table read back from its ROM image, its rows in order. Rows whose tag code is above 34 are among them: that the model
has tags for these codes is an inference (assumption 16). -/
def Obligations.RomImageHoldsTheTable : Prop :=
  (∀ d : Descriptor, d.wf3 = true → d.toWord.toNat = d.kind.code * 4096 + d.n * 256 + d.value) ∧
  (Descriptor.literal 6 0b100010).toWord = 0x0622 ∧ (Descriptor.implied .w 1).toWord = 0x5001 ∧
  (∀ r : Row, r.fields.length < 256 → ∃ h, r.toRom = h :: r.fields.map Descriptor.toWord ∧
    h.toNat = r.tag.code * 256 + r.fields.length) ∧
  (∀ t : List Row, (∀ r ∈ t, r.fields.length < 256 ∧ r.fields.all Descriptor.wf3 = true) →
    tableOfRom (tableToRom t) = some t)

/-- 30_encoding.md rule R57: no bytes satisfy the literals of two rows; no first byte is shared between a row of one
descriptor byte and a row of two; and so the order of the rows changes no decode result. -/
def Obligations.ReferenceTableIsUnambiguous : Prop :=
  (∀ (rd : Reader) (cur : Nat) (q r : RowId) (x y : FieldMap × Nat),
    extract rd cur q.row = .matched x → extract rd cur r.row = .matched y → q = r) ∧
  (∀ (q r : RowId) (b : Byte), q.opcodeMask.bytes = 1 → r.opcodeMask.bytes = 2 →
    decodeRow (listReader [b]) 0 q = .noMatch ∨ decodeRow (listReader [b]) 0 r = .noMatch) ∧
  (∀ (order : List RowId) (rd : Reader) (cur : Nat), order.Perm RowId.all →
    firstAttempt (decodeRow rd cur) order = decodeAt rd cur)

/-- 30_encoding.md rule R67: with only its first byte present, exactly the rows of the opcode map do not end in
`NOMATCH`, and of these a row of two descriptor bytes is truncated. -/
def Obligations.OpcodeMapByFirstByte : Prop :=
  ∀ (b : Byte) (r : RowId),
    (r ∈ opcodeMapRows b ↔ decodeRow (listReader [b]) 0 r ≠ .noMatch) ∧
    (r ∈ opcodeMapRows b → r.opcodeMask.bytes = 2 → decodeRow (listReader [b]) 0 r = .truncated 1)

/-- 30_encoding.md rule R67 and 41_extraction_engine.md rule R94: a row's attempt ends in `NOMATCH` iff a literal bit
differs, by the masks of spec/opcode_table.json; with its bytes present and its literals right it matches. -/
def Obligations.LiteralBitsDecideTheRow : Prop :=
  ∀ (rd : Reader) (cur : Nat) (first second : Byte) (r : RowId), rd cur = .byte first → rd (cur + 1) = .byte second →
    (r.opcodeMask.bytes = 1 →
      (r.opcodeMask.firstFits first = true → ∃ m, extract rd cur r.row = .matched (m, cur + 1)) ∧
      (r.opcodeMask.firstFits first = false → extract rd cur r.row = .noMatch)) ∧
    (r.opcodeMask.bytes = 2 →
      (r.opcodeMask.fits first second = true → ∃ m, extract rd cur r.row = .matched (m, cur + 2)) ∧
      (r.opcodeMask.fits first second = false → extract rd cur r.row = .noMatch))

/-- 30_encoding.md rules R68 and R69: NEXT responds `NOMATCH` and does not advance on a first byte that the opcode map
gives no row, the prefix bytes among them; on a second byte that has the literal bits of none of the first byte's rows;
and on `D4` or `D5` before a byte other than `0A`. That `FATAL_POS` keeps its value while `STATUS` is not `FATAL` is the
model's choice (assumption 3), and that the diagnostic line is its cursor and byte is an inference (assumption 6). -/
def Obligations.UnmatchedByteSequences : Prop :=
  ∀ (s : State) (b : Byte), s.NextIssued → s.reader s.cur = .byte b →
    (opcodeMapRows b = [] → step s = .next (afterNextNoMatch s b)) ∧
    (b ∈ ([0x26, 0x2E, 0x36, 0x3E, 0xF0, 0xF2, 0xF3] : List Byte) → step s = .next (afterNextNoMatch s b)) ∧
    (∀ c : Byte, s.reader (s.cur + 1) = .byte c →
      ((∀ r ∈ opcodeMapRows b, r.opcodeMask.bytes = 2 ∧ r.opcodeMask.fits b c = false) →
        step s = .next (afterNextNoMatch s b)) ∧
      (b = 0xD4 ∨ b = 0xD5 → c ≠ 0x0A → step s = .next (afterNextNoMatch s b)))

/-- Words written out from the encodings of 95_test_vectors.md sections 1 and 3 decode to the instructions they stand
for. -/
def Obligations.WordsOfTheSpecDecode : Prop :=
  decode [0x89, 0xD8] = .matched (.movRmReg false true 3 (.reg 0), 2) ∧
  decode [0x8B, 0x2E, 0x27, 0x00] = .matched (.movRmReg true true 5 (.direct 0x0027), 4) ∧
  decode [0xC7, 0x86, 0x10, 0x00, 0x34, 0x12] = .matched (.movRmImm true (.mem16 6 0x0010) (.word 0x1234), 6) ∧
  decode [0x83, 0x46, 0x00, 0xFF] = .matched (.addRmImm true true (.mem8 6 0) (.byte 0xFF), 4) ∧
  decode [0xE6, 0x2C] = .matched (.outFixed false 0x2C, 2) ∧
  decode [0xF7, 0x7E, 0xFE] = .matched (.idivRm true (.mem8 6 0xFE), 3) ∧
  decode [0xD5, 0x0A] = .matched (.aad, 2)

/-! ### Reads and the engine -/

/-- 20_memory.md rules R29 and R30: what a read of one byte and of two gives: the byte below `LEN`, little-endian, and
`TRUNCATED` at the first offset at or above `LEN`. -/
def Obligations.ReadsOfTheBuffer : Prop :=
  ∀ (s : State) (a : Nat), s.Sound →
    (a < s.len → ∃ b, Memory.read s.buf a = some b ∧ memRead1 s.reader a = .matched b) ∧
    (s.len ≤ a → memRead1 s.reader a = .truncated a ∧ memRead2 s.reader a = .truncated a) ∧
    (a < s.len → s.len ≤ a + 1 → memRead2 s.reader a = .truncated (a + 1)) ∧
    (a + 1 < s.len → ∃ lo hi v, Memory.read s.buf a = some lo ∧ Memory.read s.buf (a + 1) = some hi ∧
      memRead2 s.reader a = .matched v ∧ v.toNat = hi.toNat * 256 + lo.toNat)

/-- 41_extraction_engine.md rule R92: the top `n` remaining bits of the current byte, as `E_BYTE[E_BITS-1 : E_BITS-n]`,
and the bits then consumed. -/
def Obligations.TopBitsOfTheByte : Prop :=
  ∀ (e : Engine) (n : Nat), n ≤ e.bits → e.bits ≤ 8 →
    (e.topBits n).toNat = e.byte.toNat / 2 ^ (e.bits - n) % 2 ^ n ∧ (e.consume n).bits = e.bits - n

/-- 41_extraction_engine.md rule R96: a match of a row that passes WF4 ends with no bit left, past as many bytes as the
row's descriptors have bits for. -/
def Obligations.ExtractConsumesWholeBytes : Prop :=
  ∀ (row : Row) (rd : Reader) (cur : Nat) (e : Engine), row.wf4 = true →
    Engine.descriptors rd row.fields (Engine.start cur) = .matched e →
    e.bits = 0 ∧ e.pos = cur + (row.fields.map Descriptor.n).sum / 8 ∧ extract rd cur row = .matched (e.map, e.pos)

/-- 41_extraction_engine.md rule R93: an implied descriptor, `n = 0`, touches nothing of the stream and stores its
value; and, by rule R95, of two for one kind the later wins. -/
def Obligations.ImpliedDescriptorStoresItsValue : Prop :=
  ∀ (rd : Reader) (e : Engine) (k : FieldKind) (v w : Nat), k ≠ .lit →
    (∃ f, e.descriptor rd (.implied k v) = .matched f ∧ f.map k = some (BitVec.ofNat 8 v) ∧
      (∀ j, j ≠ k → f.map j = e.map j) ∧ f.pos = e.pos ∧ f.byte = e.byte ∧ f.bits = e.bits) ∧
    (∃ f, Engine.descriptors rd [.implied k v, .implied k w] e = .matched f ∧ f.map k = some (BitVec.ofNat 8 w) ∧
      (∀ j, j ≠ k → f.map j = e.map j) ∧ f.pos = e.pos ∧ f.byte = e.byte ∧ f.bits = e.bits)

/-! ### The ten steps -/

/-- 42_decoder.md rules R102, R103 and R106: whether a displacement is read, how many bytes of it, its value, and where
its read raises `TRUNCATED`. -/
def Obligations.DisplacementByModAndRm : Prop :=
  ∀ (rd : Reader) (m : FieldMap) (p : Nat),
    (m.direct = true ↔ m.val .mod = 0 ∧ m.val .rm = 6) ∧
    (m.hasDisp = true ↔ m.val .mod = 1 ∨ m.val .mod = 2 ∨ m.direct = true) ∧
    (m.dispWide = true ↔ m.val .mod = 2 ∨ m.direct = true) ∧
    (m.dispWide = false → ∀ b, rd p = .byte b →
      ∃ d : Word, d.toInt = b.toInt ∧ readDisp rd m p = .matched (d, p + 1)) ∧
    (m.dispWide = true → ∀ lo hi, rd p = .byte lo → rd (p + 1) = .byte hi →
      ∃ d : Word, d.toNat = hi.toNat * 256 + lo.toNat ∧ readDisp rd m p = .matched (d, p + 2)) ∧
    (rd p = .pastEnd → readDisp rd m p = .truncated p) ∧
    (m.dispWide = true → ∀ lo, rd p = .byte lo → rd (p + 1) = .pastEnd → readDisp rd m p = .truncated (p + 1))

/-- 42_decoder.md rules R104 and R107: data follow iff `HAS_DATA` is set; they are two bytes iff `DATA_W_FOLLOWS_W` is
set, `W = 1` and `S = 0`; one byte otherwise, sign-extended iff `S = 1`, zero-extended iff `S = 0`; and where their read
raises `TRUNCATED`. -/
def Obligations.DataByWidthAndSign : Prop :=
  ∀ (rd : Reader) (m : FieldMap) (p : Nat),
    (m.hasData = true ↔ ∃ v, m .hasData = some v ∧ v ≠ 0) ∧
    (m.dataWide = true ↔ (∃ v, m .dataWFollowsW = some v ∧ v ≠ 0) ∧ m.val .w = 1 ∧ m.val .s = 0) ∧
    (m.dataWide = true → ∀ lo hi, rd p = .byte lo → rd (p + 1) = .byte hi →
      ∃ d : Word, d.toNat = hi.toNat * 256 + lo.toNat ∧ readData rd m p = .matched (d, true, p + 2)) ∧
    (m.val .s = 1 → ∀ b, rd p = .byte b →
      ∃ d : Word, d.toInt = b.toInt ∧ readData rd m p = .matched (d, false, p + 1)) ∧
    (m.dataWide = false → m.val .s = 0 → ∀ b, rd p = .byte b →
      ∃ d : Word, d.toNat = b.toNat ∧ readData rd m p = .matched (d, false, p + 1)) ∧
    (rd p = .pastEnd → readData rd m p = .truncated p) ∧
    (m.dataWide = true → ∀ lo, rd p = .byte lo → rd (p + 1) = .pastEnd → readData rd m p = .truncated (p + 1))

/-- 42_decoder.md rules R108, R109, R110, R111, R112 and R113: where the operands go. Both operands: by `D`, and data
are dropped. One operand: by `D`, data into the other slot. None: data into slot 0. -/
def Obligations.SlotsByDirection : Prop :=
  ∀ (tag : Tag) (p : Parsed),
    (finishCore tag p).w = (p.map.val .w == 1) ∧ (finishCore tag p).stop = p.stop ∧
    (∀ r m, regLikeOf p.map = some r → modLikeOf p.map p.disp = some m →
      (finishCore tag p).instr = if p.map.val .d = 1 then ⟨tag, r, m⟩ else ⟨tag, m, r⟩) ∧
    (∀ r, regLikeOf p.map = some r → modLikeOf p.map p.disp = none →
      (finishCore tag p).instr =
        if p.map.val .d = 1 then ⟨tag, r, dataOperandOf p⟩ else ⟨tag, dataOperandOf p, r⟩) ∧
    (∀ m, regLikeOf p.map = none → modLikeOf p.map p.disp = some m →
      (finishCore tag p).instr =
        if p.map.val .d = 1 then ⟨tag, dataOperandOf p, m⟩ else ⟨tag, m, dataOperandOf p⟩) ∧
    (regLikeOf p.map = none → modLikeOf p.map p.disp = none →
      (finishCore tag p).instr = ⟨tag, dataOperandOf p, .none⟩)

/-- 42_decoder.md rule R114: with `MOD = 11`, swapping the direction bit and the two register fields gives an equal
instruction, in the six rows that have both fields. -/
def Obligations.DirectionBitSymmetry : Prop :=
  ∀ make ∈ [Instr.movRmReg, .addRmReg, .adcRmReg, .subRmReg, .sbbRmReg, .cmpRmReg],
    ∀ (w : Bool) (a b : Reg3) (rd rd' : Reader) (cur cur' : Nat),
      readerHolds rd cur (encode (make false w a (.reg b))) = true →
      readerHolds rd' cur' (encode (make true w b (.reg a))) = true →
      ∃ m m', tryCore rd cur (make false w a (.reg b)).rowId.row = .matched m ∧
        tryCore rd' cur' (make true w b (.reg a)).rowId.row = .matched m' ∧ m.instr = m'.instr

/-! ### Equality and rendering -/

/-- 40_operand_model.md rule R87: under either immediate-equality rule, operand equality and instruction equality are
equivalence relations. -/
def Obligations.EqualityIsAnEquivalence : Prop :=
  ∀ mode : ImmEq,
    (∀ a : Operand, a.eqBy mode a = true) ∧
    (∀ a b : Operand, a.eqBy mode b = true → b.eqBy mode a = true) ∧
    (∀ a b c : Operand, a.eqBy mode b = true → b.eqBy mode c = true → a.eqBy mode c = true) ∧
    (∀ i : Decoded, i.eqBy mode i = true) ∧
    (∀ i j : Decoded, i.eqBy mode j = true → j.eqBy mode i = true) ∧
    (∀ i j k : Decoded, i.eqBy mode j = true → j.eqBy mode k = true → i.eqBy mode k = true)

/-- 40_operand_model.md rules R81 to R86: equality of operands is by kind, then by fields, immediates by this hardware's
rule or the alternative; equality of instructions is by tag and slots. -/
def Obligations.EqualityByKindAndFields : Prop :=
  refParams.immEq = .byteTruncated ∧
  (∀ (x y : Word) (v w : Bool),
    ((Operand.imm x v).eqBy .byteTruncated (.imm y w) = true ↔
      v = w ∧ (v = true → x = y) ∧ (v = false → x.toNat % 256 = y.toNat % 256)) ∧
    ((Operand.imm x v).eqBy .full16 (.imm y w) = true ↔ v = w ∧ x = y)) ∧
  ∀ mode : ImmEq,
    (∀ i j v w, (Operand.reg i v).eqBy mode (.reg j w) = true ↔ i = j ∧ v = w) ∧
    (∀ i j, (Operand.seg i).eqBy mode (.seg j) = true ↔ i = j) ∧
    (∀ e f c d, (Operand.mem e c).eqBy mode (.mem f d) = true ↔ e = f ∧ c = d) ∧
    (Operand.none.eqBy mode .none = true) ∧
    (∀ a b : Operand, a.eqBy mode b = true → (∀ x v, a ≠ .imm x v) → a = b) ∧
    (∀ (b : Operand) x v, (Operand.imm x v).eqBy mode b = true → ∃ y w, b = .imm y w) ∧
    (∀ i j : Decoded, i.eqBy mode j = true ↔
      i.tag = j.tag ∧ i.slot0.eqBy mode j.slot0 = true ∧ i.slot1.eqBy mode j.slot1 = true)

/-- 44_rendering.md rule R138: equal operands, equal immediates among them, render the same. -/
def Obligations.EqualInstructionsRenderTheSame : Prop :=
  ∀ (i j : Decoded) (w : Bool), i.eqBy .byteTruncated j = true → instrText i w = instrText j w

/-- 44_rendering.md rule R132: a response whose outcome is `INSTR` is one text line, the mnemonic, then the operands
that are present in slot order; any other outcome is none; each line ends in one newline. -/
def Obligations.LineOfAResponse : Prop :=
  (∀ r : Response, r.render.isSome = true ↔ ∃ i w len row, r = .instr i w len row) ∧
  (∀ (t : Tag) (a b : Operand) (w : Bool) (len row : Nat),
    (a = .none → b = .none → (Response.instr ⟨t, a, b⟩ w len row).render = some (Tag.mnemonic t)) ∧
    (∀ x, operandText t w a = some x → b = .none →
      (Response.instr ⟨t, a, b⟩ w len row).render = some (Tag.mnemonic t ++ " " ++ x)) ∧
    (∀ y, a = .none → operandText t w b = some y →
      (Response.instr ⟨t, a, b⟩ w len row).render = some (Tag.mnemonic t ++ " " ++ y)) ∧
    (∀ x y, operandText t w a = some x → operandText t w b = some y →
      (Response.instr ⟨t, a, b⟩ w len row).render = some (Tag.mnemonic t ++ " " ++ x ++ ", " ++ y)) ∧
    (operandText t w a = none ↔ a = .none)) ∧
  (∀ (s t : State) (r : Response) (line : String), t.replies = s.replies ++ [.next r] → r.render = some line →
    t.outputText = s.outputText ++ (line ++ "\n"))

/-- 44_rendering.md rules R134 to R140: the mnemonic of every tag and the text of every operand, by kind, for every tag,
index, value and `w`, with integers in decimal as Lean's own `toString` writes them; and the examples of rules R137,
R138, R139 and R144. -/
def Obligations.TextByKind : Prop :=
  ((List.range 34).map fun k => Tag.mnemonic (Tag.ofCode (BitVec.ofNat 8 (k + 1)))) =
    ["mov", "push", "pop", "xchg", "in", "out", "xlat", "lea", "lds", "les", "lahf", "sahf", "pushf", "popf", "add",
     "adc", "inc", "aaa", "daa", "sub", "sbb", "dec", "neg", "cmp", "aas", "das", "mul", "imul", "aam", "div", "idiv",
     "aad", "cbw", "cwd"] ∧
  (∀ (t : Tag) (w : Bool),
    operandText t w .none = none ∧
    (∀ i : Reg3, operandText t w (.reg i false) = ["al", "cl", "dl", "bl", "ah", "ch", "dh", "bh"][i.toNat]?) ∧
    (∀ i : Reg3, operandText t w (.reg i true) = ["ax", "cx", "dx", "bx", "sp", "bp", "si", "di"][i.toNat]?) ∧
    (∀ i : Seg2, operandText t w (.seg i) = ["es", "cs", "ss", "ds"][i.toNat]?) ∧
    (∀ v : Word, operandText t w (.imm v false) = some ("byte " ++ toString (signedLowByte v))) ∧
    (∀ v : Word, operandText t w (.imm v true) = some ("word " ++ toString (signedWord v))) ∧
    (∀ (ea : Ea) (disp : Word),
      (t ∉ [Tag.push, .pop, .inc, .dec, .neg, .mul, .imul, .div, .idiv] →
        operandText t w (.mem ea disp) = some (memText ea disp)) ∧
      (t ∈ [Tag.push, .pop, .inc, .dec, .neg, .mul, .imul, .div, .idiv] →
        operandText t w (.mem ea disp) = some ((if w then "word " else "byte ") ++ memText ea disp)))) ∧
  (∀ disp : Word, memText .direct disp = "[" ++ toString disp.toNat ++ "]") ∧
  (∀ (rm : Reg3) (disp : Word) (e : String),
    ["bx + si", "bx + di", "bp + si", "bp + di", "si", "di", "bp", "bx"][rm.toNat]? = some e →
    (0 < signedWord disp → memText (.base rm) disp = "[" ++ e ++ " + " ++ toString (signedWord disp) ++ "]") ∧
    (signedWord disp < 0 → memText (.base rm) disp = "[" ++ e ++ " - " ++ toString (-signedWord disp) ++ "]") ∧
    (signedWord disp = 0 → memText (.base rm) disp = "[" ++ e ++ "]")) ∧
  memText (.base 0) 0 = "[bx + si]" ∧ memText (.base 7) 0xFFFD = "[bx - 3]" ∧
  memText (.base 0) 0x1387 = "[bx + si + 4999]" ∧ memText .direct 39 = "[39]" ∧ memText (.base 6) 0 = "[bp]" ∧
  immText 0x0005 false = "byte 5" ∧ immText 0xFFFF false = "byte -1" ∧ immText 0x00FF false = "byte -1" ∧
  immText 0x01F4 true = "word 500" ∧ immText 0xFFFF true = "word -1" ∧ immText 0x00C8 false = "byte -56" ∧
  instrText ⟨.inc, .mem .direct 0x0085, .none⟩ true = "inc word [133]" ∧
  instrText ⟨.inc, .mem (.base 7) 1, .none⟩ false = "inc byte [bx + 1]" ∧
  instrText ⟨.push, .mem .direct 0x1000, .none⟩ true = "push word [4096]" ∧
  instrText ⟨.mov, .reg 0 true, .reg 3 true⟩ true = "mov ax, bx"

/-! ### The rows -/

/-- 45_fmt_data_transfer.md rule R145 and 46_fmt_arithmetic.md rules R172, R175, R182, R185 and R191: register/memory
with register. The after-states of `RowGives` keep `FATAL_POS` while `STATUS` is not `FATAL`: the model's choice
(assumption 3). -/
def Obligations.RegisterMemoryRows : Prop :=
  (∀ (d : Bool) (w : Bool) (reg : Reg3) (rm : RmForm), rm.wf = true →
    RowGives (.movRmReg d w reg rm)
      [.literal 6 0b100010, .field .d 1, .field .w 1, .field .mod 2, .field .reg 3, .field .rm 3]
      ([0b100010#6 ++ BitVec.ofBool d ++ BitVec.ofBool w, rm.modBits ++ reg ++ rm.rmBits] ++ rm.dispBytes)
      (if d then ⟨.mov, .reg reg w, rmOperand w rm⟩ else ⟨.mov, rmOperand w rm, .reg reg w⟩) w 0) ∧
  (∀ (d : Bool) (w : Bool) (reg : Reg3) (rm : RmForm), rm.wf = true →
    RowGives (.addRmReg d w reg rm)
      [.literal 6 0b000000, .field .d 1, .field .w 1, .field .mod 2, .field .reg 3, .field .rm 3]
      ([0b000000#6 ++ BitVec.ofBool d ++ BitVec.ofBool w, rm.modBits ++ reg ++ rm.rmBits] ++ rm.dispBytes)
      (if d then ⟨.add, .reg reg w, rmOperand w rm⟩ else ⟨.add, rmOperand w rm, .reg reg w⟩) w 27) ∧
  (∀ (d : Bool) (w : Bool) (reg : Reg3) (rm : RmForm), rm.wf = true →
    RowGives (.adcRmReg d w reg rm)
      [.literal 6 0b000100, .field .d 1, .field .w 1, .field .mod 2, .field .reg 3, .field .rm 3]
      ([0b000100#6 ++ BitVec.ofBool d ++ BitVec.ofBool w, rm.modBits ++ reg ++ rm.rmBits] ++ rm.dispBytes)
      (if d then ⟨.adc, .reg reg w, rmOperand w rm⟩ else ⟨.adc, rmOperand w rm, .reg reg w⟩) w 30) ∧
  (∀ (d : Bool) (w : Bool) (reg : Reg3) (rm : RmForm), rm.wf = true →
    RowGives (.subRmReg d w reg rm)
      [.literal 6 0b001010, .field .d 1, .field .w 1, .field .mod 2, .field .reg 3, .field .rm 3]
      ([0b001010#6 ++ BitVec.ofBool d ++ BitVec.ofBool w, rm.modBits ++ reg ++ rm.rmBits] ++ rm.dispBytes)
      (if d then ⟨.sub, .reg reg w, rmOperand w rm⟩ else ⟨.sub, rmOperand w rm, .reg reg w⟩) w 37) ∧
  (∀ (d : Bool) (w : Bool) (reg : Reg3) (rm : RmForm), rm.wf = true →
    RowGives (.sbbRmReg d w reg rm)
      [.literal 6 0b000110, .field .d 1, .field .w 1, .field .mod 2, .field .reg 3, .field .rm 3]
      ([0b000110#6 ++ BitVec.ofBool d ++ BitVec.ofBool w, rm.modBits ++ reg ++ rm.rmBits] ++ rm.dispBytes)
      (if d then ⟨.sbb, .reg reg w, rmOperand w rm⟩ else ⟨.sbb, rmOperand w rm, .reg reg w⟩) w 40) ∧
  (∀ (d : Bool) (w : Bool) (reg : Reg3) (rm : RmForm), rm.wf = true →
    RowGives (.cmpRmReg d w reg rm)
      [.literal 6 0b001110, .field .d 1, .field .w 1, .field .mod 2, .field .reg 3, .field .rm 3]
      ([0b001110#6 ++ BitVec.ofBool d ++ BitVec.ofBool w, rm.modBits ++ reg ++ rm.rmBits] ++ rm.dispBytes)
      (if d then ⟨.cmp, .reg reg w, rmOperand w rm⟩ else ⟨.cmp, rmOperand w rm, .reg reg w⟩) w 46)

/-- 45_fmt_data_transfer.md rule R146 and 46_fmt_arithmetic.md rules R173, R176, R183, R186 and R192: immediate to
register/memory. The after-states of `RowGives` keep `FATAL_POS` while `STATUS` is not `FATAL`: the model's choice
(assumption 3). -/
def Obligations.ImmediateToRegisterMemoryRows : Prop :=
  (∀ (w : Bool) (rm : RmForm) (data : ImmData), rm.wf = true → data.fits w = true →
    RowGives (.movRmImm w rm data)
      [.literal 7 0b1100011, .field .w 1, .field .mod 2, .literal 3 0b000, .field .rm 3, .implied .hasData 1, .implied .dataWFollowsW 1]
      ([0b1100011#7 ++ BitVec.ofBool w, rm.modBits ++ 0b000#3 ++ rm.rmBits] ++ rm.dispBytes ++ data.bytes)
      ⟨.mov, rmOperand w rm, immOperand false data⟩ w 1) ∧
  (∀ (s : Bool) (w : Bool) (rm : RmForm) (data : ImmData), rm.wf = true → data.fits (w && !s) = true →
    RowGives (.addRmImm s w rm data)
      [.literal 6 0b100000, .field .s 1, .field .w 1, .field .mod 2, .literal 3 0b000, .field .rm 3, .implied .hasData 1, .implied .dataWFollowsW 1]
      ([0b100000#6 ++ BitVec.ofBool s ++ BitVec.ofBool w, rm.modBits ++ 0b000#3 ++ rm.rmBits] ++ rm.dispBytes ++ data.bytes)
      ⟨.add, rmOperand w rm, immOperand s data⟩ w 28) ∧
  (∀ (s : Bool) (w : Bool) (rm : RmForm) (data : ImmData), rm.wf = true → data.fits (w && !s) = true →
    RowGives (.adcRmImm s w rm data)
      [.literal 6 0b100000, .field .s 1, .field .w 1, .field .mod 2, .literal 3 0b010, .field .rm 3, .implied .hasData 1, .implied .dataWFollowsW 1]
      ([0b100000#6 ++ BitVec.ofBool s ++ BitVec.ofBool w, rm.modBits ++ 0b010#3 ++ rm.rmBits] ++ rm.dispBytes ++ data.bytes)
      ⟨.adc, rmOperand w rm, immOperand s data⟩ w 31) ∧
  (∀ (s : Bool) (w : Bool) (rm : RmForm) (data : ImmData), rm.wf = true → data.fits (w && !s) = true →
    RowGives (.subRmImm s w rm data)
      [.literal 6 0b100000, .field .s 1, .field .w 1, .field .mod 2, .literal 3 0b101, .field .rm 3, .implied .hasData 1, .implied .dataWFollowsW 1]
      ([0b100000#6 ++ BitVec.ofBool s ++ BitVec.ofBool w, rm.modBits ++ 0b101#3 ++ rm.rmBits] ++ rm.dispBytes ++ data.bytes)
      ⟨.sub, rmOperand w rm, immOperand s data⟩ w 38) ∧
  (∀ (s : Bool) (w : Bool) (rm : RmForm) (data : ImmData), rm.wf = true → data.fits (w && !s) = true →
    RowGives (.sbbRmImm s w rm data)
      [.literal 6 0b100000, .field .s 1, .field .w 1, .field .mod 2, .literal 3 0b011, .field .rm 3, .implied .hasData 1, .implied .dataWFollowsW 1]
      ([0b100000#6 ++ BitVec.ofBool s ++ BitVec.ofBool w, rm.modBits ++ 0b011#3 ++ rm.rmBits] ++ rm.dispBytes ++ data.bytes)
      ⟨.sbb, rmOperand w rm, immOperand s data⟩ w 41) ∧
  (∀ (s : Bool) (w : Bool) (rm : RmForm) (data : ImmData), rm.wf = true → data.fits (w && !s) = true →
    RowGives (.cmpRmImm s w rm data)
      [.literal 6 0b100000, .field .s 1, .field .w 1, .field .mod 2, .literal 3 0b111, .field .rm 3, .implied .hasData 1, .implied .dataWFollowsW 1]
      ([0b100000#6 ++ BitVec.ofBool s ++ BitVec.ofBool w, rm.modBits ++ 0b111#3 ++ rm.rmBits] ++ rm.dispBytes ++ data.bytes)
      ⟨.cmp, rmOperand w rm, immOperand s data⟩ w 47)

/-- 45_fmt_data_transfer.md rule R147 and 46_fmt_arithmetic.md rules R174, R177, R184, R187 and R193: immediate to
register and to accumulator. The after-states of `RowGives` keep `FATAL_POS` while `STATUS` is not `FATAL`: the model's
choice (assumption 3). -/
def Obligations.ImmediateToRegisterRows : Prop :=
  (∀ (w : Bool) (reg : Reg3) (data : ImmData), data.fits w = true →
    RowGives (.movRegImm w reg data)
      [.literal 4 0b1011, .field .w 1, .field .reg 3, .implied .hasData 1, .implied .dataWFollowsW 1, .implied .d 1]
      ([0b1011#4 ++ BitVec.ofBool w ++ reg] ++ data.bytes)
      ⟨.mov, .reg reg w, immOperand false data⟩ w 2) ∧
  (∀ (w : Bool) (data : ImmData), data.fits w = true →
    RowGives (.addAccImm w data)
      [.literal 7 0b0000010, .field .w 1, .implied .reg 0, .implied .d 1, .implied .hasData 1, .implied .dataWFollowsW 1]
      ([0b0000010#7 ++ BitVec.ofBool w] ++ data.bytes)
      ⟨.add, .reg 0 w, immOperand false data⟩ w 29) ∧
  (∀ (w : Bool) (data : ImmData), data.fits w = true →
    RowGives (.adcAccImm w data)
      [.literal 7 0b0001010, .field .w 1, .implied .reg 0, .implied .d 1, .implied .hasData 1, .implied .dataWFollowsW 1]
      ([0b0001010#7 ++ BitVec.ofBool w] ++ data.bytes)
      ⟨.adc, .reg 0 w, immOperand false data⟩ w 32) ∧
  (∀ (w : Bool) (data : ImmData), data.fits w = true →
    RowGives (.subAccImm w data)
      [.literal 7 0b0010110, .field .w 1, .implied .reg 0, .implied .d 1, .implied .hasData 1, .implied .dataWFollowsW 1]
      ([0b0010110#7 ++ BitVec.ofBool w] ++ data.bytes)
      ⟨.sub, .reg 0 w, immOperand false data⟩ w 39) ∧
  (∀ (w : Bool) (data : ImmData), data.fits w = true →
    RowGives (.sbbAccImm w data)
      [.literal 7 0b0001110, .field .w 1, .implied .reg 0, .implied .d 1, .implied .hasData 1, .implied .dataWFollowsW 1]
      ([0b0001110#7 ++ BitVec.ofBool w] ++ data.bytes)
      ⟨.sbb, .reg 0 w, immOperand false data⟩ w 42) ∧
  (∀ (w : Bool) (data : ImmData), data.fits w = true →
    RowGives (.cmpAccImm w data)
      [.literal 7 0b0011110, .field .w 1, .implied .reg 0, .implied .d 1, .implied .hasData 1, .implied .dataWFollowsW 1]
      ([0b0011110#7 ++ BitVec.ofBool w] ++ data.bytes)
      ⟨.cmp, .reg 0 w, immOperand false data⟩ w 48)

/-- 45_fmt_data_transfer.md rules R148, R149, R150 and R151: `mov` between the accumulator and a direct address, and to
and from a segment register. The after-states of `RowGives` keep `FATAL_POS` while `STATUS` is not `FATAL`: the model's
choice (assumption 3). -/
def Obligations.AccumulatorAndSegmentMoveRows : Prop :=
  (∀ (w : Bool) (addr : Word),
    RowGives (.movAccMem w addr)
      [.literal 7 0b1010000, .field .w 1, .implied .mod 0, .implied .reg 0, .implied .rm 6, .implied .d 1]
      ([0b1010000#7 ++ BitVec.ofBool w] ++ wordBytes addr)
      ⟨.mov, .reg 0 w, .mem .direct addr⟩ w 3) ∧
  (∀ (w : Bool) (addr : Word),
    RowGives (.movMemAcc w addr)
      [.literal 7 0b1010001, .field .w 1, .implied .mod 0, .implied .reg 0, .implied .rm 6, .implied .d 0]
      ([0b1010001#7 ++ BitVec.ofBool w] ++ wordBytes addr)
      ⟨.mov, .mem .direct addr, .reg 0 w⟩ w 4) ∧
  (∀ (sr : Seg2) (rm : RmForm), rm.wf = true →
    RowGives (.movSegRm sr rm)
      [.literal 8 0b10001110, .field .mod 2, .literal 1 0b0, .field .sr 2, .field .rm 3, .implied .w 1, .implied .d 1]
      ([0b10001110#8, rm.modBits ++ 0b0#1 ++ sr ++ rm.rmBits] ++ rm.dispBytes)
      ⟨.mov, .seg sr, rmOperand true rm⟩ true 5) ∧
  (∀ (sr : Seg2) (rm : RmForm), rm.wf = true →
    RowGives (.movRmSeg sr rm)
      [.literal 8 0b10001100, .field .mod 2, .literal 1 0b0, .field .sr 2, .field .rm 3, .implied .w 1, .implied .d 0]
      ([0b10001100#8, rm.modBits ++ 0b0#1 ++ sr ++ rm.rmBits] ++ rm.dispBytes)
      ⟨.mov, rmOperand true rm, .seg sr⟩ true 6)

/-- 45_fmt_data_transfer.md rules R152 to R157: `push` and `pop`. The after-states of `RowGives` keep `FATAL_POS` while
`STATUS` is not `FATAL`: the model's choice (assumption 3). -/
def Obligations.StackRows : Prop :=
  (∀ (rm : RmForm), rm.wf = true →
    RowGives (.pushRm rm)
      [.literal 8 0b11111111, .field .mod 2, .literal 3 0b110, .field .rm 3, .implied .w 1]
      ([0b11111111#8, rm.modBits ++ 0b110#3 ++ rm.rmBits] ++ rm.dispBytes)
      ⟨.push, rmOperand true rm, .none⟩ true 7) ∧
  (∀ (reg : Reg3),
    RowGives (.pushReg reg)
      [.literal 5 0b01010, .field .reg 3, .implied .w 1, .implied .d 1]
      ([0b01010#5 ++ reg])
      ⟨.push, .reg reg true, .none⟩ true 8) ∧
  (∀ (sr : Seg2),
    RowGives (.pushSeg sr)
      [.literal 3 0b000, .field .sr 2, .literal 3 0b110, .implied .d 1]
      ([0b000#3 ++ sr ++ 0b110#3])
      ⟨.push, .seg sr, .none⟩ false 9) ∧
  (∀ (rm : RmForm), rm.wf = true →
    RowGives (.popRm rm)
      [.literal 8 0b10001111, .field .mod 2, .literal 3 0b000, .field .rm 3, .implied .w 1]
      ([0b10001111#8, rm.modBits ++ 0b000#3 ++ rm.rmBits] ++ rm.dispBytes)
      ⟨.pop, rmOperand true rm, .none⟩ true 10) ∧
  (∀ (reg : Reg3),
    RowGives (.popReg reg)
      [.literal 5 0b01011, .field .reg 3, .implied .w 1, .implied .d 1]
      ([0b01011#5 ++ reg])
      ⟨.pop, .reg reg true, .none⟩ true 11) ∧
  (∀ (sr : Seg2),
    RowGives (.popSeg sr)
      [.literal 3 0b000, .field .sr 2, .literal 3 0b111, .implied .d 1]
      ([0b000#3 ++ sr ++ 0b111#3])
      ⟨.pop, .seg sr, .none⟩ false 12)

/-- 45_fmt_data_transfer.md rules R158, R159, R165, R166 and R167: `xchg`, `lea`, `lds` and `les`. The after-states of
`RowGives` keep `FATAL_POS` while `STATUS` is not `FATAL`: the model's choice (assumption 3). -/
def Obligations.ExchangeAndPointerRows : Prop :=
  (∀ (w : Bool) (reg : Reg3) (rm : RmForm), rm.wf = true →
    RowGives (.xchgRmReg w reg rm)
      [.literal 7 0b1000011, .field .w 1, .field .mod 2, .field .reg 3, .field .rm 3]
      ([0b1000011#7 ++ BitVec.ofBool w, rm.modBits ++ reg ++ rm.rmBits] ++ rm.dispBytes)
      ⟨.xchg, rmOperand w rm, .reg reg w⟩ w 13) ∧
  (∀ (reg : Reg3),
    RowGives (.xchgAccReg reg)
      [.literal 5 0b10010, .field .reg 3, .implied .mod 3, .implied .rm 0, .implied .w 1]
      ([0b10010#5 ++ reg])
      ⟨.xchg, .reg 0 true, .reg reg true⟩ true 14) ∧
  (∀ (reg : Reg3) (rm : RmForm), rm.wf = true →
    RowGives (.lea reg rm)
      [.literal 8 0b10001101, .field .mod 2, .field .reg 3, .field .rm 3, .implied .w 1, .implied .d 1]
      ([0b10001101#8, rm.modBits ++ reg ++ rm.rmBits] ++ rm.dispBytes)
      ⟨.lea, .reg reg true, rmOperand true rm⟩ true 20) ∧
  (∀ (reg : Reg3) (rm : RmForm), rm.wf = true →
    RowGives (.lds reg rm)
      [.literal 8 0b11000101, .field .mod 2, .field .reg 3, .field .rm 3, .implied .w 1, .implied .d 1]
      ([0b11000101#8, rm.modBits ++ reg ++ rm.rmBits] ++ rm.dispBytes)
      ⟨.lds, .reg reg true, rmOperand true rm⟩ true 21) ∧
  (∀ (reg : Reg3) (rm : RmForm), rm.wf = true →
    RowGives (.les reg rm)
      [.literal 8 0b11000100, .field .mod 2, .field .reg 3, .field .rm 3, .implied .w 1, .implied .d 1]
      ([0b11000100#8, rm.modBits ++ reg ++ rm.rmBits] ++ rm.dispBytes)
      ⟨.les, .reg reg true, rmOperand true rm⟩ true 22)

/-- 45_fmt_data_transfer.md rules R160 to R163: `in` and `out`. The after-states of `RowGives` keep `FATAL_POS` while
`STATUS` is not `FATAL`: the model's choice (assumption 3). -/
def Obligations.PortRows : Prop :=
  (∀ (w : Bool) (port : Byte),
    RowGives (.inFixed w port)
      [.literal 7 0b1110010, .field .w 1, .implied .reg 0, .implied .d 1, .implied .hasData 1]
      ([0b1110010#7 ++ BitVec.ofBool w] ++ [port])
      ⟨.inp, .reg 0 w, .imm (zext16 port) false⟩ w 15) ∧
  (∀ (w : Bool),
    RowGives (.inDx w)
      [.literal 7 0b1110110, .field .w 1, .implied .reg 0, .implied .mod 3, .implied .rm 2, .implied .rmAlwaysW 1, .implied .d 1]
      ([0b1110110#7 ++ BitVec.ofBool w])
      ⟨.inp, .reg 0 w, .reg 2 true⟩ w 16) ∧
  (∀ (w : Bool) (port : Byte),
    RowGives (.outFixed w port)
      [.literal 7 0b1110011, .field .w 1, .implied .reg 0, .implied .d 0, .implied .hasData 1]
      ([0b1110011#7 ++ BitVec.ofBool w] ++ [port])
      ⟨.outp, .imm (zext16 port) false, .reg 0 w⟩ w 17) ∧
  (∀ (w : Bool),
    RowGives (.outDx w)
      [.literal 7 0b1110111, .field .w 1, .implied .reg 0, .implied .mod 3, .implied .rm 2, .implied .rmAlwaysW 1, .implied .d 0]
      ([0b1110111#7 ++ BitVec.ofBool w])
      ⟨.outp, .reg 2 true, .reg 0 w⟩ w 18)

/-- 46_fmt_arithmetic.md rules R178, R179, R188, R189, R190, R196, R197, R199 and R200: `inc`, `dec`, `neg`, `mul`,
`imul`, `div` and `idiv`. The after-states of `RowGives` keep `FATAL_POS` while `STATUS` is not `FATAL`: the model's
choice (assumption 3). -/
def Obligations.OneOperandRows : Prop :=
  (∀ (w : Bool) (rm : RmForm), rm.wf = true →
    RowGives (.incRm w rm)
      [.literal 7 0b1111111, .field .w 1, .field .mod 2, .literal 3 0b000, .field .rm 3]
      ([0b1111111#7 ++ BitVec.ofBool w, rm.modBits ++ 0b000#3 ++ rm.rmBits] ++ rm.dispBytes)
      ⟨.inc, rmOperand w rm, .none⟩ w 33) ∧
  (∀ (reg : Reg3),
    RowGives (.incReg reg)
      [.literal 5 0b01000, .field .reg 3, .implied .w 1, .implied .d 1]
      ([0b01000#5 ++ reg])
      ⟨.inc, .reg reg true, .none⟩ true 34) ∧
  (∀ (w : Bool) (rm : RmForm), rm.wf = true →
    RowGives (.decRm w rm)
      [.literal 7 0b1111111, .field .w 1, .field .mod 2, .literal 3 0b001, .field .rm 3]
      ([0b1111111#7 ++ BitVec.ofBool w, rm.modBits ++ 0b001#3 ++ rm.rmBits] ++ rm.dispBytes)
      ⟨.dec, rmOperand w rm, .none⟩ w 43) ∧
  (∀ (reg : Reg3),
    RowGives (.decReg reg)
      [.literal 5 0b01001, .field .reg 3, .implied .w 1, .implied .d 1]
      ([0b01001#5 ++ reg])
      ⟨.dec, .reg reg true, .none⟩ true 44) ∧
  (∀ (w : Bool) (rm : RmForm), rm.wf = true →
    RowGives (.negRm w rm)
      [.literal 7 0b1111011, .field .w 1, .field .mod 2, .literal 3 0b011, .field .rm 3]
      ([0b1111011#7 ++ BitVec.ofBool w, rm.modBits ++ 0b011#3 ++ rm.rmBits] ++ rm.dispBytes)
      ⟨.neg, rmOperand w rm, .none⟩ w 45) ∧
  (∀ (w : Bool) (rm : RmForm), rm.wf = true →
    RowGives (.mulRm w rm)
      [.literal 7 0b1111011, .field .w 1, .field .mod 2, .literal 3 0b100, .field .rm 3]
      ([0b1111011#7 ++ BitVec.ofBool w, rm.modBits ++ 0b100#3 ++ rm.rmBits] ++ rm.dispBytes)
      ⟨.mul, rmOperand w rm, .none⟩ w 51) ∧
  (∀ (w : Bool) (rm : RmForm), rm.wf = true →
    RowGives (.imulRm w rm)
      [.literal 7 0b1111011, .field .w 1, .field .mod 2, .literal 3 0b101, .field .rm 3]
      ([0b1111011#7 ++ BitVec.ofBool w, rm.modBits ++ 0b101#3 ++ rm.rmBits] ++ rm.dispBytes)
      ⟨.imul, rmOperand w rm, .none⟩ w 52) ∧
  (∀ (w : Bool) (rm : RmForm), rm.wf = true →
    RowGives (.divRm w rm)
      [.literal 7 0b1111011, .field .w 1, .field .mod 2, .literal 3 0b110, .field .rm 3]
      ([0b1111011#7 ++ BitVec.ofBool w, rm.modBits ++ 0b110#3 ++ rm.rmBits] ++ rm.dispBytes)
      ⟨.div, rmOperand w rm, .none⟩ w 54) ∧
  (∀ (w : Bool) (rm : RmForm), rm.wf = true →
    RowGives (.idivRm w rm)
      [.literal 7 0b1111011, .field .w 1, .field .mod 2, .literal 3 0b111, .field .rm 3]
      ([0b1111011#7 ++ BitVec.ofBool w, rm.modBits ++ 0b111#3 ++ rm.rmBits] ++ rm.dispBytes)
      ⟨.idiv, rmOperand w rm, .none⟩ w 55)

/-- 45_fmt_data_transfer.md rules R164, R168, R169, R170 and R171: `xlat`, `lahf`, `sahf`, `pushf` and `popf`. The
after-states of `RowGives` keep `FATAL_POS` while `STATUS` is not `FATAL`: the model's choice (assumption 3). -/
def Obligations.NoOperandTransferRows : Prop :=
  RowGives .xlat
      [.literal 8 0b11010111]
      ([0b11010111#8])
      ⟨.xlat, .none, .none⟩ false 19 ∧
  RowGives .lahf
      [.literal 8 0b10011111]
      ([0b10011111#8])
      ⟨.lahf, .none, .none⟩ false 23 ∧
  RowGives .sahf
      [.literal 8 0b10011110]
      ([0b10011110#8])
      ⟨.sahf, .none, .none⟩ false 24 ∧
  RowGives .pushf
      [.literal 8 0b10011100]
      ([0b10011100#8])
      ⟨.pushf, .none, .none⟩ false 25 ∧
  RowGives .popf
      [.literal 8 0b10011101]
      ([0b10011101#8])
      ⟨.popf, .none, .none⟩ false 26

/-- 46_fmt_arithmetic.md rules R180, R181, R194, R195, R198, R201, R202 and R203: `aaa`, `daa`, `aas`, `das`, `aam`,
`aad`, `cbw` and `cwd`. The after-states of `RowGives` keep `FATAL_POS` while `STATUS` is not `FATAL`: the model's
choice (assumption 3). -/
def Obligations.NoOperandArithmeticRows : Prop :=
  RowGives .aaa
      [.literal 8 0b00110111]
      ([0b00110111#8])
      ⟨.aaa, .none, .none⟩ false 35 ∧
  RowGives .daa
      [.literal 8 0b00100111]
      ([0b00100111#8])
      ⟨.daa, .none, .none⟩ false 36 ∧
  RowGives .aas
      [.literal 8 0b00111111]
      ([0b00111111#8])
      ⟨.aas, .none, .none⟩ false 49 ∧
  RowGives .das
      [.literal 8 0b00101111]
      ([0b00101111#8])
      ⟨.das, .none, .none⟩ false 50 ∧
  RowGives .aam
      [.literal 8 0b11010100, .literal 8 0b00001010]
      ([0b11010100#8, 0b00001010#8])
      ⟨.aam, .none, .none⟩ false 53 ∧
  RowGives .aad
      [.literal 8 0b11010101, .literal 8 0b00001010]
      ([0b11010101#8, 0b00001010#8])
      ⟨.aad, .none, .none⟩ false 56 ∧
  RowGives .cbw
      [.literal 8 0b10011000]
      ([0b10011000#8])
      ⟨.cbw, .none, .none⟩ false 57 ∧
  RowGives .cwd
      [.literal 8 0b10011001]
      ([0b10011001#8])
      ⟨.cwd, .none, .none⟩ false 58

/-! ### The decode loop -/

/-- 43_stream_driver.md rules R129 and R130: the decode loop, from any state and on any image, comes to its end after at
most `LEN` instructions. After LOAD's reply the replies are an `INSTR` for each NEXT but the last, one line on the
output channel for each, and one other outcome, which is the end of the run: `END` (success) with `CUR = LEN`; `NOMATCH`
with `CUR` at the unmatched bytes, just past the instructions decoded; or `FATAL` with `FATAL_POS` the offset of the
missing byte. -/
def Obligations.DecodeLoopEnds : Prop :=
  ∀ (s : State) (bytes : List Byte), ∃ (run : Run) (is : List Response) (last : Response),
    decodeImage step bytes s = some run ∧ run.state.len = min bytes.length 262144 ∧ is.length ≤ run.state.len ∧
    (∀ r ∈ is, r.code = 0) ∧ last.code ≠ 0 ∧
    run.state.replies = s.replies ++ .loaded :: is.map .next ++ [.next last] ∧
    run.lines.map some = is.map Response.render ∧ run.state.outputLines = s.outputLines ++ run.lines ∧
    run.state.ops = s.ops ∧ run.state.cur = (is.map Response.length).sum ∧ run.state.lgp = run.state.cur ∧
    ((last = .endOfStream ∧ run.finish = .success ∧ run.state.status = .ready ∧ run.state.cur = run.state.len) ∨
     (last = .noMatch ∧ run.finish = .unmatched run.state.cur ∧ run.state.status = .noMatch ∧
       run.state.cur < run.state.len) ∨
     (last = .fatal ∧ run.finish = .missing run.state.fatalPos ∧ run.state.status = .fatal ∧
       run.state.fatalPos = run.state.len ∧ run.state.cur < run.state.len))
end

