-- ==== Sys2Proof/Laws/Engine.lean ====
section
/-! SUPPORT. What an attempt reads: its bytes stand one after another from `CUR` on, a fault is at the first offset that
has no byte, and nothing else is read. Later proofs cite `Attempt.Reads` and unfold no read. -/

namespace Sys2Proof

/-! ### Going on after an outcome -/

@[simp] theorem Attempt.matched_andThen {α β : Type} (a : α) (f : α → Attempt β) :
    (Attempt.matched a).andThen f = f a := rfl

@[simp] theorem Attempt.noMatch_andThen {α β : Type} (f : α → Attempt β) :
    Attempt.noMatch.andThen f = .noMatch := rfl

@[simp] theorem Attempt.truncated_andThen {α β : Type} (a : Nat) (f : α → Attempt β) :
    (Attempt.truncated a).andThen f = .truncated a := rfl

@[simp] theorem Attempt.noValue_andThen {α β : Type} (a : Nat) (f : α → Attempt β) :
    (Attempt.noValue a).andThen f = .noValue a := rfl

theorem Attempt.ite_andThen {α β : Type} (c : Prop) [Decidable c] (x y : Attempt α) (f : α → Attempt β) :
    (if c then x else y).andThen f = if c then x.andThen f else y.andThen f := by split <;> rfl

theorem Attempt.andThen_assoc {α β γ : Type} (x : Attempt α) (f : α → Attempt β) (g : β → Attempt γ) :
    (x.andThen f).andThen g = x.andThen fun a => (f a).andThen g := by cases x <;> rfl

/-! ### What is read -/

/-- Every offset from `a` up to, not including, `b` holds a byte. -/
def Covers (rd : Reader) (a b : Nat) : Prop := ∀ k, a ≤ k → k < b → ∃ x, rd k = .byte x

theorem Covers.refl (rd : Reader) (a : Nat) : Covers rd a a := fun _ h1 h2 => absurd h2 (by omega)

theorem Covers.trans {rd : Reader} {a b c : Nat} (h1 : Covers rd a b) (h2 : Covers rd b c) : Covers rd a c := by
  intro k ha hc
  by_cases hb : k < b
  · exact h1 k ha hb
  · exact h2 k (by omega) hc

theorem Covers.one {rd : Reader} {a : Nat} {x : Byte} (h : rd a = .byte x) : Covers rd a (a + 1) := by
  intro k h1 h2
  obtain rfl : k = a := by omega
  exact ⟨x, h⟩

/-- An attempt that began at offset `a` read the bytes from there up to `pos` of its result, or up to the offset of its
fault, where there is none. -/
def Attempt.Reads {α : Type} (rd : Reader) (a : Nat) (pos : α → Nat) : Attempt α → Prop
  | .matched v => a ≤ pos v ∧ Covers rd a (pos v)
  | .noMatch => True
  | .truncated b => a ≤ b ∧ Covers rd a b ∧ rd b = .pastEnd
  | .noValue b => a ≤ b ∧ Covers rd a b ∧ rd b = .noValue

theorem Attempt.Reads.andThen {α β : Type} {rd : Reader} {a : Nat} {pos : α → Nat} {pos' : β → Nat} {x : Attempt α}
    {f : α → Attempt β} (hx : x.Reads rd a pos) (hf : ∀ v, x = .matched v → (f v).Reads rd (pos v) pos') :
    (x.andThen f).Reads rd a pos' := by
  cases x with
  | matched v =>
    obtain ⟨h1, h2⟩ := hx
    have hv := hf v rfl
    simp only [Attempt.andThen]
    cases hfv : f v with
    | matched w => rw [hfv] at hv; exact ⟨le_trans h1 hv.1, h2.trans hv.2⟩
    | noMatch => trivial
    | truncated b => rw [hfv] at hv; exact ⟨le_trans h1 hv.1, h2.trans hv.2.1, hv.2.2⟩
    | noValue b => rw [hfv] at hv; exact ⟨le_trans h1 hv.1, h2.trans hv.2.1, hv.2.2⟩
  | noMatch => trivial
  | truncated b => exact hx
  | noValue b => exact hx

theorem Attempt.Reads.of_matched {α : Type} {rd : Reader} {pos : α → Nat} {v : α} :
    (Attempt.matched v).Reads rd (pos v) pos := ⟨le_refl _, Covers.refl _ _⟩

theorem memRead1_reads (rd : Reader) (a : Nat) : (memRead1 rd a).Reads rd a (fun _ => a + 1) := by
  unfold memRead1
  cases h : rd a with
  | byte b => exact ⟨Nat.le_succ a, Covers.one h⟩
  | pastEnd => exact ⟨le_refl _, Covers.refl _ _, h⟩
  | noValue => exact ⟨le_refl _, Covers.refl _ _, h⟩

theorem memRead2_reads (rd : Reader) (a : Nat) : (memRead2 rd a).Reads rd a (fun _ => a + 2) :=
  (memRead1_reads rd a).andThen fun _ _ => (memRead1_reads rd (a + 1)).andThen fun _ _ => Attempt.Reads.of_matched

theorem Engine.fetch_reads (rd : Reader) (e : Engine) : (e.fetch rd).Reads rd e.pos Engine.pos := by
  unfold Engine.fetch
  split
  · exact (memRead1_reads rd e.pos).andThen fun _ _ => ⟨le_refl _, Covers.refl _ _⟩
  · exact Attempt.Reads.of_matched

theorem Engine.accept_reads (rd : Reader) (e : Engine) (d : Descriptor) (v : Byte) :
    (e.accept d v).Reads rd e.pos Engine.pos := by
  unfold Engine.accept
  split
  · split
    · exact ⟨le_refl _, Covers.refl _ _⟩
    · trivial
  · exact ⟨le_refl _, Covers.refl _ _⟩

theorem Engine.descriptor_reads (rd : Reader) (e : Engine) (d : Descriptor) :
    (e.descriptor rd d).Reads rd e.pos Engine.pos := by
  unfold Engine.descriptor
  split
  · exact Engine.accept_reads rd e d _
  · exact (Engine.fetch_reads rd e).andThen fun f _ => Engine.accept_reads rd (f.consume d.n) d _

theorem Engine.descriptors_reads (rd : Reader) (ds : List Descriptor) (e : Engine) :
    (Engine.descriptors rd ds e).Reads rd e.pos Engine.pos := by
  induction ds generalizing e with
  | nil => exact Attempt.Reads.of_matched
  | cons d ds ih => exact (Engine.descriptor_reads rd e d).andThen fun f _ => ih f

theorem extract_reads (rd : Reader) (cur : Nat) (row : Row) :
    (extract rd cur row).Reads rd cur Prod.snd :=
  (Engine.descriptors_reads rd row.fields (Engine.start cur)).andThen fun _ _ => ⟨le_refl _, Covers.refl _ _⟩

theorem readDisp_reads (rd : Reader) (m : FieldMap) (p : Nat) : (readDisp rd m p).Reads rd p Prod.snd := by
  unfold readDisp
  split
  · exact (memRead2_reads rd p).andThen fun _ _ => ⟨le_refl _, Covers.refl _ _⟩
  · exact (memRead1_reads rd p).andThen fun _ _ => ⟨le_refl _, Covers.refl _ _⟩

theorem readData_reads (rd : Reader) (m : FieldMap) (p : Nat) : (readData rd m p).Reads rd p (fun v => v.2.2) := by
  unfold readData
  split
  · exact (memRead2_reads rd p).andThen fun _ _ => ⟨le_refl _, Covers.refl _ _⟩
  · exact (memRead1_reads rd p).andThen fun _ _ => ⟨le_refl _, Covers.refl _ _⟩

theorem readTrailing_reads (rd : Reader) (m : FieldMap) (p : Nat) : (readTrailing rd m p).Reads rd p Parsed.stop := by
  unfold readTrailing
  refine Attempt.Reads.andThen (pos := Prod.snd) ?_ fun d _ => ?_
  · split
    · exact readDisp_reads rd m p
    · exact ⟨le_refl _, Covers.refl _ _⟩
  · refine Attempt.Reads.andThen (pos := fun v => v.2.2) ?_ fun _ _ => ⟨le_refl _, Covers.refl _ _⟩
    split
    · exact readData_reads rd m d.2
    · exact ⟨le_refl _, Covers.refl _ _⟩

/-- What one row's attempt reads, whatever the row: the bytes from `CUR` up to its end or its fault. -/
theorem parse_reads (rd : Reader) (cur : Nat) (row : Row) : (parse rd cur row).Reads rd cur Parsed.stop :=
  (extract_reads rd cur row).andThen fun _ _ => readTrailing_reads rd _ _

/-- An outcome of the row scan is an outcome of some row's attempt. -/
theorem firstAttempt_mem {ρ α : Type} (f : ρ → Attempt α) (rs : List ρ) (h : firstAttempt f rs ≠ .noMatch) :
    ∃ r ∈ rs, firstAttempt f rs = f r := by
  induction rs with
  | nil => exact absurd rfl h
  | cons r rs ih =>
    cases hr : f r with
    | matched a => exact ⟨r, by simp, by simp [firstAttempt, hr]⟩
    | noMatch =>
      have he : firstAttempt f (r :: rs) = firstAttempt f rs := by simp [firstAttempt, hr]
      obtain ⟨q, hq, hv⟩ := ih (he ▸ h)
      exact ⟨q, by simp [hq], he.trans hv⟩
    | truncated a => exact ⟨r, by simp, by simp [firstAttempt, hr]⟩
    | noValue a => exact ⟨r, by simp, by simp [firstAttempt, hr]⟩

/-- With every row before it in `NOMATCH`, a row that is not decides the scan. -/
theorem firstAttempt_append {ρ α : Type} (f : ρ → Attempt α) (before : List ρ) (r : ρ) (after : List ρ)
    (hb : ∀ q ∈ before, f q = .noMatch) (hr : f r ≠ .noMatch) : firstAttempt f (before ++ r :: after) = f r := by
  induction before with
  | nil =>
    cases h : f r with
    | matched a => simp [firstAttempt, h]
    | noMatch => exact absurd h hr
    | truncated a => simp [firstAttempt, h]
    | noValue a => simp [firstAttempt, h]
  | cons q qs ih =>
    have hq := hb q (by simp)
    simp only [List.cons_append, firstAttempt, hq]
    exact ih fun p hp => hb p (by simp [hp])

end Sys2Proof
end

