-- ==== Sys2Proof/Laws/State.lean ====
section
/-! SUPPORT. What each register update of Machine/Ops.lean leaves in each field of the state: one lemma per field per
update, so that no later proof unfolds an update. -/

namespace Sys2Proof.Machine

variable (s : State)

/-! ### `State.hear` -/

@[simp] theorem State.hear_buf (r : Reply) : (State.hear r s).buf = s.buf := rfl
@[simp] theorem State.hear_len (r : Reply) : (State.hear r s).len = s.len := rfl
@[simp] theorem State.hear_cur (r : Reply) : (State.hear r s).cur = s.cur := rfl
@[simp] theorem State.hear_lgp (r : Reply) : (State.hear r s).lgp = s.lgp := rfl
@[simp] theorem State.hear_status (r : Reply) : (State.hear r s).status = s.status := rfl
@[simp] theorem State.hear_fatalPos (r : Reply) : (State.hear r s).fatalPos = s.fatalPos := rfl
@[simp] theorem State.hear_ops (r : Reply) : (State.hear r s).ops = s.ops := rfl
@[simp] theorem State.hear_replies (r : Reply) : (State.hear r s).replies = s.replies ++ [r] := rfl
@[simp] theorem State.hear_err (r : Reply) : (State.hear r s).err = s.err := rfl
@[simp] theorem State.hear_freeCount (r : Reply) : (State.hear r s).freeCount = s.freeCount := rfl

/-! ### `State.answer` -/

@[simp] theorem State.answer_buf (r : Reply) : (State.answer r s).buf = s.buf := rfl
@[simp] theorem State.answer_len (r : Reply) : (State.answer r s).len = s.len := rfl
@[simp] theorem State.answer_cur (r : Reply) : (State.answer r s).cur = s.cur := rfl
@[simp] theorem State.answer_lgp (r : Reply) : (State.answer r s).lgp = s.lgp := rfl
@[simp] theorem State.answer_status (r : Reply) : (State.answer r s).status = s.status := rfl
@[simp] theorem State.answer_fatalPos (r : Reply) : (State.answer r s).fatalPos = s.fatalPos := rfl
@[simp] theorem State.answer_ops (r : Reply) : (State.answer r s).ops = s.ops.tail := rfl
@[simp] theorem State.answer_replies (r : Reply) : (State.answer r s).replies = s.replies ++ [r] := rfl
@[simp] theorem State.answer_err (r : Reply) : (State.answer r s).err = s.err := rfl
@[simp] theorem State.answer_freeCount (r : Reply) : (State.answer r s).freeCount = s.freeCount := rfl

/-! ### `State.advance` -/

@[simp] theorem State.advance_buf (n : Nat) : (State.advance n s).buf = s.buf := rfl
@[simp] theorem State.advance_len (n : Nat) : (State.advance n s).len = s.len := rfl
@[simp] theorem State.advance_cur (n : Nat) : (State.advance n s).cur = s.cur + n := rfl
@[simp] theorem State.advance_lgp (n : Nat) : (State.advance n s).lgp = s.lgp := rfl
@[simp] theorem State.advance_status (n : Nat) : (State.advance n s).status = s.status := rfl
@[simp] theorem State.advance_fatalPos (n : Nat) : (State.advance n s).fatalPos = s.fatalPos := rfl
@[simp] theorem State.advance_ops (n : Nat) : (State.advance n s).ops = s.ops := rfl
@[simp] theorem State.advance_replies (n : Nat) : (State.advance n s).replies = s.replies := rfl
@[simp] theorem State.advance_err (n : Nat) : (State.advance n s).err = s.err := rfl
@[simp] theorem State.advance_freeCount (n : Nat) : (State.advance n s).freeCount = s.freeCount := rfl

/-! ### `State.commit` -/

@[simp] theorem State.commit_buf (n : Nat) : (State.commit n s).buf = s.buf := rfl
@[simp] theorem State.commit_len (n : Nat) : (State.commit n s).len = s.len := rfl
@[simp] theorem State.commit_cur (n : Nat) : (State.commit n s).cur = s.cur + n := rfl
@[simp] theorem State.commit_lgp (n : Nat) : (State.commit n s).lgp = s.cur + n := rfl
@[simp] theorem State.commit_status (n : Nat) : (State.commit n s).status = .ready := rfl
@[simp] theorem State.commit_fatalPos (n : Nat) : (State.commit n s).fatalPos = s.fatalPos := rfl
@[simp] theorem State.commit_ops (n : Nat) : (State.commit n s).ops = s.ops := rfl
@[simp] theorem State.commit_replies (n : Nat) : (State.commit n s).replies = s.replies := rfl
@[simp] theorem State.commit_err (n : Nat) : (State.commit n s).err = s.err := rfl
@[simp] theorem State.commit_freeCount (n : Nat) : (State.commit n s).freeCount = s.freeCount := rfl

/-! ### `State.setStatus` -/

@[simp] theorem State.setStatus_buf (v : Status) : (State.setStatus v s).buf = s.buf := rfl
@[simp] theorem State.setStatus_len (v : Status) : (State.setStatus v s).len = s.len := rfl
@[simp] theorem State.setStatus_cur (v : Status) : (State.setStatus v s).cur = s.cur := rfl
@[simp] theorem State.setStatus_lgp (v : Status) : (State.setStatus v s).lgp = s.lgp := rfl
@[simp] theorem State.setStatus_status (v : Status) : (State.setStatus v s).status = v := rfl
@[simp] theorem State.setStatus_fatalPos (v : Status) : (State.setStatus v s).fatalPos = s.fatalPos := rfl
@[simp] theorem State.setStatus_ops (v : Status) : (State.setStatus v s).ops = s.ops := rfl
@[simp] theorem State.setStatus_replies (v : Status) : (State.setStatus v s).replies = s.replies := rfl
@[simp] theorem State.setStatus_err (v : Status) : (State.setStatus v s).err = s.err := rfl
@[simp] theorem State.setStatus_freeCount (v : Status) : (State.setStatus v s).freeCount = s.freeCount := rfl

/-! ### `State.truncate` -/

@[simp] theorem State.truncate_buf (a : Nat) : (State.truncate a s).buf = s.buf := rfl
@[simp] theorem State.truncate_len (a : Nat) : (State.truncate a s).len = s.len := rfl
@[simp] theorem State.truncate_cur (a : Nat) : (State.truncate a s).cur = s.cur := rfl
@[simp] theorem State.truncate_lgp (a : Nat) : (State.truncate a s).lgp = s.lgp := rfl
@[simp] theorem State.truncate_status (a : Nat) : (State.truncate a s).status = .fatal := rfl
@[simp] theorem State.truncate_fatalPos (a : Nat) : (State.truncate a s).fatalPos = a := rfl
@[simp] theorem State.truncate_ops (a : Nat) : (State.truncate a s).ops = s.ops := rfl
@[simp] theorem State.truncate_replies (a : Nat) : (State.truncate a s).replies = s.replies := rfl
@[simp] theorem State.truncate_err (a : Nat) : (State.truncate a s).err = s.err := rfl
@[simp] theorem State.truncate_freeCount (a : Nat) : (State.truncate a s).freeCount = s.freeCount := rfl

/-! ### `State.warn` -/

@[simp] theorem State.warn_buf (d : Diag) : (State.warn d s).buf = s.buf := rfl
@[simp] theorem State.warn_len (d : Diag) : (State.warn d s).len = s.len := rfl
@[simp] theorem State.warn_cur (d : Diag) : (State.warn d s).cur = s.cur := rfl
@[simp] theorem State.warn_lgp (d : Diag) : (State.warn d s).lgp = s.lgp := rfl
@[simp] theorem State.warn_status (d : Diag) : (State.warn d s).status = s.status := rfl
@[simp] theorem State.warn_fatalPos (d : Diag) : (State.warn d s).fatalPos = s.fatalPos := rfl
@[simp] theorem State.warn_ops (d : Diag) : (State.warn d s).ops = s.ops := rfl
@[simp] theorem State.warn_replies (d : Diag) : (State.warn d s).replies = s.replies := rfl
@[simp] theorem State.warn_err (d : Diag) : (State.warn d s).err = s.err ++ [d] := rfl
@[simp] theorem State.warn_freeCount (d : Diag) : (State.warn d s).freeCount = s.freeCount := rfl

/-! ### `State.restart` -/

@[simp] theorem State.restart_buf : (State.restart s).buf = s.buf := rfl
@[simp] theorem State.restart_len : (State.restart s).len = s.len := rfl
@[simp] theorem State.restart_cur : (State.restart s).cur = 0 := rfl
@[simp] theorem State.restart_lgp : (State.restart s).lgp = 0 := rfl
@[simp] theorem State.restart_status : (State.restart s).status = .ready := rfl
@[simp] theorem State.restart_fatalPos : (State.restart s).fatalPos = s.fatalPos := rfl
@[simp] theorem State.restart_ops : (State.restart s).ops = s.ops := rfl
@[simp] theorem State.restart_replies : (State.restart s).replies = s.replies := rfl
@[simp] theorem State.restart_err : (State.restart s).err = s.err := rfl
@[simp] theorem State.restart_freeCount : (State.restart s).freeCount = s.freeCount := rfl

/-! ### `State.forgetFatalPos` -/

@[simp] theorem State.forgetFatalPos_buf : (State.forgetFatalPos s).buf = s.buf := rfl
@[simp] theorem State.forgetFatalPos_len : (State.forgetFatalPos s).len = s.len := rfl
@[simp] theorem State.forgetFatalPos_cur : (State.forgetFatalPos s).cur = s.cur := rfl
@[simp] theorem State.forgetFatalPos_lgp : (State.forgetFatalPos s).lgp = s.lgp := rfl
@[simp] theorem State.forgetFatalPos_status : (State.forgetFatalPos s).status = s.status := rfl
@[simp] theorem State.forgetFatalPos_fatalPos : (State.forgetFatalPos s).fatalPos = Config.freeFatalPos s.freeCount := rfl
@[simp] theorem State.forgetFatalPos_ops : (State.forgetFatalPos s).ops = s.ops := rfl
@[simp] theorem State.forgetFatalPos_replies : (State.forgetFatalPos s).replies = s.replies := rfl
@[simp] theorem State.forgetFatalPos_err : (State.forgetFatalPos s).err = s.err := rfl
@[simp] theorem State.forgetFatalPos_freeCount : (State.forgetFatalPos s).freeCount = s.freeCount + 1 := rfl

/-! ### `State.store` -/

@[simp] theorem State.store_buf (c : Nat) (bytes : List Byte) : (State.store c bytes s).buf = Memory.ofBytes (bytes.take c) := rfl
@[simp] theorem State.store_len (c : Nat) (bytes : List Byte) : (State.store c bytes s).len = min bytes.length c := rfl
@[simp] theorem State.store_cur (c : Nat) (bytes : List Byte) : (State.store c bytes s).cur = s.cur := rfl
@[simp] theorem State.store_lgp (c : Nat) (bytes : List Byte) : (State.store c bytes s).lgp = s.lgp := rfl
@[simp] theorem State.store_status (c : Nat) (bytes : List Byte) : (State.store c bytes s).status = s.status := rfl
@[simp] theorem State.store_fatalPos (c : Nat) (bytes : List Byte) : (State.store c bytes s).fatalPos = s.fatalPos := rfl
@[simp] theorem State.store_ops (c : Nat) (bytes : List Byte) : (State.store c bytes s).ops = s.ops := rfl
@[simp] theorem State.store_replies (c : Nat) (bytes : List Byte) : (State.store c bytes s).replies = s.replies := rfl
@[simp] theorem State.store_err (c : Nat) (bytes : List Byte) : (State.store c bytes s).err = s.err := rfl
@[simp] theorem State.store_freeCount (c : Nat) (bytes : List Byte) : (State.store c bytes s).freeCount = s.freeCount := rfl

/-! ### `State.issue` -/

@[simp] theorem State.issue_buf (op : HostOp) : (State.issue op s).buf = s.buf := rfl
@[simp] theorem State.issue_len (op : HostOp) : (State.issue op s).len = s.len := rfl
@[simp] theorem State.issue_cur (op : HostOp) : (State.issue op s).cur = s.cur := rfl
@[simp] theorem State.issue_lgp (op : HostOp) : (State.issue op s).lgp = s.lgp := rfl
@[simp] theorem State.issue_status (op : HostOp) : (State.issue op s).status = s.status := rfl
@[simp] theorem State.issue_fatalPos (op : HostOp) : (State.issue op s).fatalPos = s.fatalPos := rfl
@[simp] theorem State.issue_ops (op : HostOp) : (State.issue op s).ops = op :: s.ops := rfl
@[simp] theorem State.issue_replies (op : HostOp) : (State.issue op s).replies = s.replies := rfl
@[simp] theorem State.issue_err (op : HostOp) : (State.issue op s).err = s.err := rfl
@[simp] theorem State.issue_freeCount (op : HostOp) : (State.issue op s).freeCount = s.freeCount := rfl

/-! ### `State.placeAndIssueNext` -/

@[simp] theorem State.placeAndIssueNext_buf (bytes : List Byte) : (State.placeAndIssueNext bytes s).buf = Memory.ofBytes (bytes.take Config.inputCapacity) := rfl
@[simp] theorem State.placeAndIssueNext_len (bytes : List Byte) : (State.placeAndIssueNext bytes s).len = min bytes.length Config.inputCapacity := rfl
@[simp] theorem State.placeAndIssueNext_cur (bytes : List Byte) : (State.placeAndIssueNext bytes s).cur = 0 := rfl
@[simp] theorem State.placeAndIssueNext_lgp (bytes : List Byte) : (State.placeAndIssueNext bytes s).lgp = 0 := rfl
@[simp] theorem State.placeAndIssueNext_status (bytes : List Byte) : (State.placeAndIssueNext bytes s).status = .ready := rfl
@[simp] theorem State.placeAndIssueNext_fatalPos (bytes : List Byte) : (State.placeAndIssueNext bytes s).fatalPos = s.fatalPos := rfl
@[simp] theorem State.placeAndIssueNext_ops (bytes : List Byte) : (State.placeAndIssueNext bytes s).ops = .next :: s.ops := rfl
@[simp] theorem State.placeAndIssueNext_replies (bytes : List Byte) : (State.placeAndIssueNext bytes s).replies = s.replies := rfl
@[simp] theorem State.placeAndIssueNext_err (bytes : List Byte) : (State.placeAndIssueNext bytes s).err = s.err := rfl
@[simp] theorem State.placeAndIssueNext_freeCount (bytes : List Byte) : (State.placeAndIssueNext bytes s).freeCount = s.freeCount := rfl

end Sys2Proof.Machine
end

