-- ==== Sys2Proof/Laws/Ops.lean ====
section
/-! SUPPORT. What completing a match can do, and that every meaning is the completion of a match: later proofs cite
these and unfold neither `complete` nor a meaning. -/

namespace Sys2Proof.Machine

/-- A byte that the decoder reads stands below `LEN` in `BUF`. -/
theorem State.reader_eq_byte {s : State} {a : Nat} {b : Byte} (h : s.reader a = .byte b) :
    a < s.len ∧ Memory.read s.buf a = some b := by
  unfold State.reader at h
  split at h
  · refine ⟨‹_›, ?_⟩
    split at h
    · rename_i x hx
      simp only [Fetch.byte.injEq] at h
      rw [hx, h]
    · simp at h
  · simp at h

/-- The decoder reads past the end at exactly the offsets at or above `LEN`. -/
theorem State.reader_eq_pastEnd {s : State} {a : Nat} : s.reader a = .pastEnd ↔ s.len ≤ a := by
  unfold State.reader
  constructor
  · intro h
    split at h
    · split at h <;> simp at h
    · omega
  · intro h
    simp [Nat.not_lt.mpr h]

/-! ### `complete` -/

theorem complete_next {s : State} (h : s.ops.head? = some .next) (i : Decoded) (w : Bool) (len row : Nat) :
    complete i w len row s = .next (afterNext s i w len row) := by
  obtain ⟨rest, h⟩ : ∃ rest, s.ops = .next :: rest := by
    cases ho : s.ops with
    | nil => simp [ho] at h
    | cons a l => simp only [ho, List.head?_cons, Option.some.injEq] at h; exact ⟨l, by rw [h]⟩
  simp only [complete, h]
  rfl

theorem complete_try {s : State} {k : Nat} (h : s.ops.head? = some (.tryRow k)) (i : Decoded) (w : Bool)
    (len row : Nat) : complete i w len row s = .next (afterTry s i w len row) := by
  obtain ⟨rest, h⟩ : ∃ rest, s.ops = .tryRow k :: rest := by
    cases ho : s.ops with
    | nil => simp [ho] at h
    | cons a l => simp only [ho, List.head?_cons, Option.some.injEq] at h; exact ⟨l, by rw [h]⟩
  simp only [complete, h]
  rfl

/-- With neither NEXT nor TRY issued (assumption 4), the registers are written as NEXT writes them. -/
theorem complete_idle {s : State} (hn : s.ops.head? ≠ some .next) (ht : ∀ k, s.ops.head? ≠ some (.tryRow k))
    (i : Decoded) (w : Bool) (len row : Nat) :
    complete i w len row s = .next ((s.commit len).hear (.next (.instr i w len row))) := by
  unfold complete
  split
  · rename_i k _ h
    exact absurd (by rw [h]; rfl) (ht k)
  · rename_i h
    exact absurd (by rw [h]; rfl) hn
  · rfl

/-! ### The meanings -/

@[simp] theorem dispBytes_length (rm : RmForm) : rm.dispBytes.length = rm.dispLen := by cases rm <;> rfl

@[simp] theorem dataBytes_length (data : ImmData) : data.bytes.length = data.dataLen := by cases data <;> rfl

/-- Every meaning completes a match of its own row, with the length of its own encoding. -/
theorem exec_shape (i : Instr) :
    ∃ (d : Decoded) (w : Bool), ∀ s, exec i s = complete d w (encode i).length i.rowId.index s := by
  suffices h : ∃ d w n row, (∀ s, exec i s = complete d w n row s) ∧ n = (encode i).length ∧ row = i.rowId.index by
    obtain ⟨d, w, _, _, he, rfl, rfl⟩ := h
    exact ⟨d, w, he⟩
  cases i <;> exact ⟨_, _, _, _, fun _ => rfl, by simp [encode, wordBytes]; try omega, rfl⟩

end Sys2Proof.Machine
end

