-- ==== Sys2Proof/Laws/Step.lean ====
section
/-! SUPPORT. Everything one step can do, said once: what each host operation answers, and the cases of a step that goes
on. Later proofs cite these and unfold neither `step` nor the driver. -/

namespace Sys2Proof.Machine

/-! ### What each operation is -/

/-- With nothing issued the FTD holds its state. -/
theorem step_idle {s : State} (h : s.ops = []) : step s = .next s := by
  simp [step, Driver.stepWith, h]

/-- With an operation issued a step performs it. -/
theorem step_perform {s : State} {op : HostOp} {rest : List HostOp} (h : s.ops = op :: rest) :
    step s = Driver.perform op s := by
  simp [step, Driver.stepWith, h]

theorem head_issued {s : State} {op : HostOp} (h : s.ops.head? = some op) : ∃ rest, s.ops = op :: rest := by
  cases ho : s.ops with
  | nil => simp [ho] at h
  | cons a l => simp only [ho, List.head?_cons, Option.some.injEq] at h; exact ⟨l, by rw [h]⟩

theorem step_next_eq {s : State} (h : s.ops.head? = some .next) : step s = Driver.next s := by
  obtain ⟨rest, ho⟩ := head_issued h
  exact step_perform ho

theorem step_try_eq {s : State} {k : Nat} (h : s.ops.head? = some (.tryRow k)) : step s = Driver.tryRow k s := by
  obtain ⟨rest, ho⟩ := head_issued h
  exact step_perform ho

/-- A row's name and its index name each other. -/
theorem RowId.ofIndex_index (r : RowId) : RowId.ofIndex r.index = some r := by cases r <;> rfl

theorem RowId.ofIndex_eq_none {k : Nat} : RowId.ofIndex k = none ↔ 59 ≤ k := by
  simp [RowId.ofIndex, RowId.all]

theorem RowId.index_of_ofIndex {k : Nat} {r : RowId} (h : RowId.ofIndex k = some r) : r.index = k := by
  have hk : k < 59 := by
    by_contra hn
    rw [RowId.ofIndex_eq_none.mpr (by omega)] at h
    cases h
  have hall : ∀ j < 59, ∀ q, RowId.ofIndex j = some q → q.index = j := by decide
  exact hall k hk r h

/-! ### The outcomes of NEXT -/

/-- Where the first byte is read and holds no value, so is every row's attempt. -/
theorem decodeRow_noValue {rd : Reader} {cur : Nat} (h : rd cur = .noValue) (r : RowId) :
    decodeRow rd cur r = .noValue cur := by
  cases r <;>
    simp [decodeRow, parse, extract, RowId.row, Engine.descriptors, Engine.descriptor, Engine.fetch, Engine.start,
      memRead1, h, Attempt.andThen, Descriptor.literal]

/-- Past the end of the input every row is truncated at the cursor. -/
theorem decodeRow_pastEnd {rd : Reader} {cur : Nat} (h : rd cur = .pastEnd) (r : RowId) :
    decodeRow rd cur r = .truncated cur := by
  cases r <;>
    simp [decodeRow, parse, extract, RowId.row, Engine.descriptors, Engine.descriptor, Engine.fetch, Engine.start,
      memRead1, h, Attempt.andThen, Descriptor.literal]

/-- A scan that no row matched has read the byte at the cursor. -/
theorem decodeAt_noMatch {rd : Reader} {cur : Nat} (h : decodeAt rd cur = .noMatch) : ∃ b, rd cur = .byte b := by
  cases hr : rd cur with
  | byte b => exact ⟨b, rfl⟩
  | pastEnd => simp [decodeAt, RowId.all, firstAttempt, decodeRow_pastEnd hr] at h
  | noValue => simp [decodeAt, RowId.all, firstAttempt, decodeRow_noValue hr] at h

/-- Every way a NEXT can go on: 43_stream_driver.md rules R121 to R125. -/
theorem step_next_cases {s t : State} (h : s.ops.head? = some .next) (hs : step s = .next t) :
    (s.status = .fatal ∧ t = afterNextReply s .fatal) ∨
    (s.status ≠ .fatal ∧ s.len ≤ s.cur ∧ t = { afterNextReply s .endOfStream with status := .ready }) ∨
    (s.status ≠ .fatal ∧ s.cur < s.len ∧
      ((∃ i stop, decodeAt s.reader s.cur = .matched (i, stop) ∧ exec i s = .next t) ∨
       (∃ b, decodeAt s.reader s.cur = .noMatch ∧ s.reader s.cur = .byte b ∧ t = afterNextNoMatch s b) ∨
       (∃ a, decodeAt s.reader s.cur = .truncated a ∧ t = afterNextTruncated s a))) := by
  rw [step_next_eq h, Driver.next, Driver.nextWith] at hs
  split at hs
  · rename_i hf
    exact .inl ⟨hf, (Host.Outcome.next.inj hs).symm⟩
  · rename_i hf
    split at hs
    · rename_i hl
      exact .inr (.inl ⟨hf, hl, (Host.Outcome.next.inj hs).symm⟩)
    · rename_i hl
      refine .inr (.inr ⟨hf, by omega, ?_⟩)
      split at hs
      · rename_i m hm
        exact .inl ⟨m.1, m.2, hm, hs⟩
      · rename_i hm
        obtain ⟨b, hb⟩ := decodeAt_noMatch hm
        simp only [Driver.nextNoMatch, memRead1, hb] at hs
        exact .inr (.inl ⟨b, hm, hb, (Host.Outcome.next.inj hs).symm⟩)
      · rename_i a hm
        exact .inr (.inr ⟨a, hm, (Host.Outcome.next.inj hs).symm⟩)
      · cases hs

/-! ### The outcomes of TRY -/

/-- Every way a TRY can go on: 42_decoder.md rule R116. -/
theorem step_try_cases {s t : State} {k : Nat} (h : s.ops.head? = some (.tryRow k)) (hs : step s = .next t) :
    (59 ≤ k ∧ (t = afterTryReply s .refused ∨ s.status = .fatal ∧ t = afterTryReply s .fatal)) ∨
    (∃ r : RowId, r.index = k ∧
      ((s.status = .fatal ∧ t = afterTryReply s .fatal) ∨
       (s.status ≠ .fatal ∧
        ((∃ i stop, decodeRow s.reader s.cur r = .matched (i, stop) ∧ exec i s = .next t) ∨
         (decodeRow s.reader s.cur r = .noMatch ∧ t = afterTryReply s .noMatch) ∨
         (∃ a, decodeRow s.reader s.cur r = .truncated a ∧ t = afterTryTruncated s a))))) := by
  rw [step_try_eq h, Driver.tryRow, Driver.tryWith] at hs
  split at hs
  · rename_i hn
    refine .inl ⟨RowId.ofIndex_eq_none.mp (by simpa using hn), ?_⟩
    split at hs
    · rename_i hf
      exact .inr ⟨hf.1, (Host.Outcome.next.inj hs).symm⟩
    · exact .inl (Host.Outcome.next.inj hs).symm
  · rename_i x hx
    obtain ⟨r, hr, rfl⟩ := Option.map_eq_some_iff.mp hx
    refine .inr ⟨r, RowId.index_of_ofIndex hr, ?_⟩
    split at hs
    · rename_i hf
      exact .inl ⟨hf, (Host.Outcome.next.inj hs).symm⟩
    · rename_i hf
      refine .inr ⟨hf, ?_⟩
      split at hs
      · rename_i m hm
        exact .inl ⟨m.1, m.2, hm, hs⟩
      · rename_i hm
        exact .inr (.inl ⟨hm, (Host.Outcome.next.inj hs).symm⟩)
      · rename_i a hm
        exact .inr (.inr ⟨a, hm, (Host.Outcome.next.inj hs).symm⟩)
      · cases hs

/-! ### What an attempt of a row reads -/

/-- What one row's attempt reads, whatever the row. -/
theorem decodeRow_reads (rd : Reader) (cur : Nat) (r : RowId) :
    (decodeRow rd cur r).Reads rd cur Prod.snd :=
  (parse_reads rd cur r.row).andThen fun _ _ => ⟨le_refl _, Covers.refl _ _⟩

/-- What the scan of the table reads. -/
theorem decodeAt_reads (rd : Reader) (cur : Nat) : (decodeAt rd cur).Reads rd cur Prod.snd := by
  by_cases h : decodeAt rd cur = .noMatch
  · rw [h]; trivial
  · obtain ⟨r, -, hr⟩ := firstAttempt_mem (decodeRow rd cur) RowId.all h
    rw [decodeAt, hr]
    exact decodeRow_reads rd cur r

end Sys2Proof.Machine
end

