-- ==== Sys2Proof/Laws/Decode.lean ====
section
/-! SUPPORT. The bytes after the descriptor bytes, once for every r/m form and every immediate: what step 6 reads where
they stand, and that the form and the immediate are read back; with them a row's attempt is known as soon as its
extraction is. -/

namespace Sys2Proof

open Sys2Proof.Machine

/-! ### Bytes, words and bit fields -/

@[simp] theorem wordOfBytes_low_high (v : Word) : wordOfBytes (lowByte v) (highByte v) = v := by
  have h : v.extractLsb' 8 8 ++ v.extractLsb' 0 8 = v.extractLsb' 0 (8 + 8) := by
    rw [BitVec.extractLsb'_append_extractLsb'_eq_extractLsb' (by omega)]
  simpa [wordOfBytes, lowByte, highByte, BitVec.setWidth_eq_extractLsb'] using h

@[simp] theorem lowByte_sext16 (b : Byte) : lowByte (sext16 b) = b := by revert b; decide

@[simp] theorem lowByte_zext16 (b : Byte) : lowByte (zext16 b) = b := by revert b; decide

theorem setWidth_ne_six {rm : Reg3} (h : rm ≠ 6#3) : rm.setWidth 8 ≠ 6#8 := by revert rm; decide

/-- The fields of a ModRM byte, as the engine takes them. -/
theorem modrm_bits (m : BitVec 2) (r x : BitVec 3) :
    (m ++ r ++ x : BitVec 8) >>> 6 &&& 3#8 = m.setWidth 8 ∧ (m ++ r ++ x : BitVec 8) >>> 3 &&& 7#8 = r.setWidth 8 ∧
    (m ++ r ++ x : BitVec 8) &&& 7#8 = x.setWidth 8 ∧ (m ++ r ++ x : BitVec 8).toNat >>> 3 &&& 7 = r.toNat := by
  revert m r x; decide

/-- The fields of a ModRM byte that carries a segment register. -/
theorem modsr_bits (m g : BitVec 2) (x : BitVec 3) :
    (m ++ 0#1 ++ g ++ x : BitVec 8) >>> 6 &&& 3#8 = m.setWidth 8 ∧
    (m ++ 0#1 ++ g ++ x : BitVec 8).toNat >>> 5 &&& 1 = 0 ∧
    (m ++ 0#1 ++ g ++ x : BitVec 8) >>> 3 &&& 3#8 = g.setWidth 8 ∧
    (m ++ 0#1 ++ g ++ x : BitVec 8) &&& 7#8 = x.setWidth 8 := by
  revert m g x; decide

/-! ### Bytes that stand in the buffer -/

theorem holds_cons {rd : Reader} {a : Nat} {b : Byte} {bs : List Byte} :
    readerHolds rd a (b :: bs) = true ↔ rd a = .byte b ∧ readerHolds rd (a + 1) bs = true := by
  simp [readerHolds]

theorem holds_append {rd : Reader} {a : Nat} {bs cs : List Byte} :
    readerHolds rd a (bs ++ cs) = true ↔ readerHolds rd a bs = true ∧ readerHolds rd (a + bs.length) cs = true := by
  induction bs generalizing a with
  | nil => simp [readerHolds]
  | cons b bs ih => simp [readerHolds, ih, and_assoc, Nat.add_assoc, Nat.add_comm 1]

theorem holds_disp_data {rd : Reader} {a : Nat} {rm : RmForm} {data : ImmData} :
    readerHolds rd a (rm.dispBytes ++ data.bytes) = true ↔
      readerHolds rd a rm.dispBytes = true ∧ readerHolds rd (a + rm.dispLen) data.bytes = true := by
  rw [holds_append, dispBytes_length]

/-! ### The displacement and the data -/

/-- `DISP` of an r/m form (42_decoder.md rule R106). -/
def dispOf : RmForm → Word
  | .reg _ => 0
  | .direct addr => addr
  | .mem0 _ => 0
  | .mem8 _ d => sext16 d
  | .mem16 _ d => d

/-- `DATA` of an immediate (42_decoder.md rule R107). -/
def dataOf (signed : Bool) : ImmData → Word
  | .byte b => if signed then sext16 b else zext16 b
  | .word v => v

/-- Step 6 reads the displacement of an r/m form. -/
theorem readDisp_form {rd : Reader} {m : FieldMap} {p : Nat} {rm : RmForm}
    (hm : m.val .mod = rm.modBits.setWidth 8) (hr : m.val .rm = rm.rmBits.setWidth 8) (hw : rm.wf = true)
    (h : readerHolds rd p rm.dispBytes = true) :
    (if m.hasDisp then readDisp rd m p else .matched (0, p)) = .matched (dispOf rm, p + rm.dispLen) := by
  cases rm with
  | reg r => simp [FieldMap.hasDisp, FieldMap.direct, hm, RmForm.modBits, dispOf, RmForm.dispLen]
  | direct a =>
    simp [RmForm.dispBytes, wordBytes, readerHolds] at h
    simp [FieldMap.hasDisp, FieldMap.direct, hm, hr, RmForm.modBits, RmForm.rmBits, readDisp, FieldMap.dispWide,
      memRead2, memRead1, h, dispOf, RmForm.dispLen]
  | mem0 r =>
    have : r.setWidth 8 ≠ 6#8 := setWidth_ne_six (by simpa [RmForm.wf] using hw)
    simp [FieldMap.hasDisp, FieldMap.direct, hm, hr, RmForm.modBits, RmForm.rmBits, dispOf, RmForm.dispLen, this]
  | mem8 r d =>
    simp [RmForm.dispBytes, readerHolds] at h
    simp [FieldMap.hasDisp, FieldMap.direct, hm, RmForm.modBits, readDisp, FieldMap.dispWide, memRead1, h, dispOf,
      RmForm.dispLen]
  | mem16 r d =>
    simp [RmForm.dispBytes, wordBytes, readerHolds] at h
    simp [FieldMap.hasDisp, FieldMap.direct, hm, RmForm.modBits, readDisp, FieldMap.dispWide, memRead2, memRead1, h,
      dispOf, RmForm.dispLen]

/-- The r/m form is read back. -/
theorem rmForm_form {q : Parsed} {rm : RmForm} (hm : q.map.val .mod = rm.modBits.setWidth 8)
    (hr : q.map.val .rm = rm.rmBits.setWidth 8) (hd : q.disp = dispOf rm) (hw : rm.wf = true) : q.rmForm = rm := by
  cases rm with
  | reg r => simp [Parsed.rmForm, hm, hr, RmForm.modBits, RmForm.rmBits]
  | direct a => simp [Parsed.rmForm, FieldMap.direct, hm, hr, hd, RmForm.modBits, RmForm.rmBits, dispOf]
  | mem0 r =>
    have : r.setWidth 8 ≠ 6#8 := setWidth_ne_six (by simpa [RmForm.wf] using hw)
    simp [Parsed.rmForm, FieldMap.direct, hm, hr, RmForm.modBits, RmForm.rmBits, this]
  | mem8 r d => simp [Parsed.rmForm, FieldMap.direct, hm, hr, hd, RmForm.modBits, RmForm.rmBits, dispOf]
  | mem16 r d => simp [Parsed.rmForm, FieldMap.direct, hm, hr, hd, RmForm.modBits, RmForm.rmBits, dispOf]

/-- Step 6 reads an immediate. -/
theorem readData_form {rd : Reader} {m : FieldMap} {p : Nat} {data : ImmData} (hd : m.dataWide = data.wide)
    (h : readerHolds rd p data.bytes = true) :
    readData rd m p = .matched (dataOf m.signExtends data, data.wide, p + data.dataLen) := by
  cases data with
  | byte b =>
    simp [ImmData.bytes, readerHolds] at h
    simp [readData, hd, ImmData.wide, memRead1, h, dataOf, ImmData.dataLen]
  | word v =>
    simp [ImmData.bytes, wordBytes, readerHolds] at h
    simp [readData, hd, ImmData.wide, memRead2, memRead1, h, dataOf, ImmData.dataLen]

/-- The immediate is read back. -/
theorem immData_form {q : Parsed} {data : ImmData} {signed : Bool} (hd : q.data = dataOf signed data)
    (hw : q.dataWide = data.wide) : q.immData = data := by
  cases data with
  | byte x => cases signed <;> simp [Parsed.immData, hd, hw, ImmData.wide, dataOf]
  | word v => simp [Parsed.immData, hd, hw, ImmData.wide, dataOf]

/-! ### A row's attempt, from its extraction -/

/-- A row with an r/m operand and no data. -/
theorem decodeRow_rm {rd : Reader} {cur p stop : Nat} {r : RowId} {rm : RmForm} {i : Instr}
    (hx : ∃ f, extract rd cur r.row = .matched (f, p) ∧ f.val .mod = rm.modBits.setWidth 8 ∧
      f.val .rm = rm.rmBits.setWidth 8 ∧ f.hasData = false ∧
      ∀ q : Parsed, q.map = f → q.rmForm = rm → assemble r q = i)
    (hw : rm.wf = true) (h : readerHolds rd p rm.dispBytes = true) (hl : stop = p + rm.dispLen) :
    decodeRow rd cur r = .matched (i, stop) := by
  subst hl
  obtain ⟨f, hx, hm, hr, hd, ha⟩ := hx
  simp only [decodeRow, parse, hx, Attempt.matched_andThen, readTrailing, readDisp_form hm hr hw h, hd,
    Bool.false_eq_true, if_false]
  rw [ha _ rfl (rmForm_form hm hr rfl hw)]

/-- A row with an r/m operand and data. -/
theorem decodeRow_rm_data {rd : Reader} {cur p stop : Nat} {r : RowId} {rm : RmForm} {data : ImmData} {i : Instr}
    (hx : ∃ f, extract rd cur r.row = .matched (f, p) ∧ f.val .mod = rm.modBits.setWidth 8 ∧
      f.val .rm = rm.rmBits.setWidth 8 ∧ f.hasData = true ∧ f.dataWide = data.wide ∧
      ∀ q : Parsed, q.map = f → q.rmForm = rm → q.immData = data → assemble r q = i)
    (hw : rm.wf = true) (h : readerHolds rd p rm.dispBytes = true)
    (hb : readerHolds rd (p + rm.dispLen) data.bytes = true) (hl : stop = p + rm.dispLen + data.dataLen) :
    decodeRow rd cur r = .matched (i, stop) := by
  subst hl
  obtain ⟨f, hx, hm, hr, hd, hv, ha⟩ := hx
  simp only [decodeRow, parse, hx, Attempt.matched_andThen, readTrailing, readDisp_form hm hr hw h, hd, if_true,
    readData_form hv hb]
  rw [ha _ rfl (rmForm_form hm hr rfl hw) (immData_form rfl rfl)]

/-- A row with data and no r/m operand. -/
theorem decodeRow_data {rd : Reader} {cur p stop : Nat} {r : RowId} {data : ImmData} {i : Instr}
    (hx : ∃ f, extract rd cur r.row = .matched (f, p) ∧ f.hasDisp = false ∧ f.hasData = true ∧
      f.dataWide = data.wide ∧ ∀ q : Parsed, q.map = f → q.immData = data → assemble r q = i)
    (hb : readerHolds rd p data.bytes = true) (hl : stop = p + data.dataLen) :
    decodeRow rd cur r = .matched (i, stop) := by
  subst hl
  obtain ⟨f, hx, hm, hd, hv, ha⟩ := hx
  simp only [decodeRow, parse, hx, Attempt.matched_andThen, readTrailing, hm, hd, if_true, readData_form hv hb,
    Bool.false_eq_true, if_false]
  rw [ha _ rfl (immData_form rfl rfl)]

/-- A row with nothing after its descriptor bytes. -/
theorem decodeRow_bare {rd : Reader} {cur p stop : Nat} {r : RowId} {i : Instr}
    (hx : ∃ f, extract rd cur r.row = .matched (f, p) ∧ f.hasDisp = false ∧ f.hasData = false ∧
      ∀ q : Parsed, q.map = f → assemble r q = i) (hl : stop = p) :
    decodeRow rd cur r = .matched (i, stop) := by
  subst hl
  obtain ⟨f, hx, hm, hd, ha⟩ := hx
  simp only [decodeRow, parse, hx, Attempt.matched_andThen, readTrailing, hm, hd, Bool.false_eq_true, if_false]
  rw [ha _ rfl]

/-- The instruction a row assembles is the row's. -/
theorem assemble_rowId (r : RowId) (q : Parsed) : (assemble r q).rowId = r := by cases r <;> rfl

end Sys2Proof
end

