-- ==== Sys2Proof/Laws/Loop.lean ====
section
/-! SUPPORT. The two things one turn of the decode loop can do, and what it does to the output channel: later proofs cite
these and unfold no loop. -/

namespace Sys2Proof.Machine

/-- After an `INSTR` the loop prints its line and goes on. -/
theorem decodeLoop_goes_on {run : State → Result} {n : Nat} {s t : State} {i : Decoded} {w : Bool} {len row : Nat}
    (h : run (s.issue .next) = .next t) (hr : t.replies.getLast? = some (.next (.instr i w len row))) :
    decodeLoop run (n + 1) s = (decodeLoop run n t).map (Run.after (instrText i w)) := by
  simp only [decodeLoop, h, hr]
  rfl

/-- Any other reply to NEXT is the end of the run. -/
theorem decodeLoop_ends {run : State → Result} {n : Nat} {s t : State} {r : Reply} {e : RunEnd}
    (h : run (s.issue .next) = .next t) (hr : t.replies.getLast? = some r) (he : r.runEnd t = some e) :
    decodeLoop run (n + 1) s = some ⟨[], e, t⟩ := by
  simp only [decodeLoop, h, hr, he]

/-- A reply puts its line, where it has one, after those already on the output channel. -/
theorem State.outputLines_append {s t : State} {r : Reply} (h : t.replies = s.replies ++ [r]) :
    t.outputLines = s.outputLines ++ r.line.toList := by
  rw [State.outputLines, State.outputLines, h, List.filterMap_append]
  cases hl : r.line <;> simp [hl]

end Sys2Proof.Machine
end

