-- ==== Sys2Proof/Laws/Memory.lean ====
section
/-! SUPPORT. The buffer's operations: what is read of a buffer that LOAD stores, and that it is in canonical form. -/

namespace Sys2Proof.Machine

theorem Memory.ofBytesAt_map_fst (a : Nat) (bytes : List Byte) :
    (Memory.ofBytesAt a bytes).map Prod.fst = List.range' a bytes.length := by
  induction bytes generalizing a with
  | nil => rfl
  | cons b bs ih => simp [Memory.ofBytesAt, ih, List.range'_succ]

theorem Memory.ofBytes_map_fst (bytes : List Byte) :
    (Memory.ofBytes bytes).map Prod.fst = List.range bytes.length := by
  rw [Memory.ofBytes, Memory.ofBytesAt_map_fst, List.range_eq_range']

/-- The buffer LOAD stores holds exactly the bytes it was given. -/
theorem Memory.read_ofBytesAt (a : Nat) (bytes : List Byte) (k : Nat) :
    Memory.read (Memory.ofBytesAt a bytes) (a + k) = bytes[k]? := by
  induction bytes generalizing a k with
  | nil => rfl
  | cons b bs ih =>
    cases k with
    | zero => simp [Memory.read, Memory.ofBytesAt]
    | succ k =>
      have h : (a + (k + 1) == a) = false := by simp
      simp only [Memory.read, Memory.ofBytesAt, List.lookup, h, List.getElem?_cons_succ]
      have := ih (a + 1) k
      rwa [show a + 1 + k = a + (k + 1) by omega] at this

theorem Memory.read_ofBytes (bytes : List Byte) (k : Nat) :
    Memory.read (Memory.ofBytes bytes) k = bytes[k]? := by
  simpa [Memory.ofBytes] using Memory.read_ofBytesAt 0 bytes k

/-- A buffer whose offsets are a range is in canonical form. -/
theorem Memory.wf_of_range' (m : Memory) (a n : Nat) (h : m.map Prod.fst = List.range' a n) : Memory.wf m = true := by
  induction m generalizing a n with
  | nil => rfl
  | cons c m ih =>
    cases n with
    | zero => simp at h
    | succ n =>
      rw [List.map_cons, List.range'_succ, List.cons.injEq] at h
      cases m with
      | nil => rfl
      | cons d rest =>
        cases n with
        | zero => simp at h
        | succ n =>
          have h2 := h.2
          rw [List.map_cons, List.range'_succ, List.cons.injEq] at h2
          have ht := ih (a + 1) (n + 1) h.2
          rw [Memory.wf, ht, h.1, h2.1]
          simp

/-- LOAD stores a buffer in canonical form. -/
theorem Memory.wf_ofBytes (bytes : List Byte) : Memory.wf (Memory.ofBytes bytes) = true :=
  Memory.wf_of_range' _ _ _ (by rw [Memory.ofBytes_map_fst, List.range_eq_range'])

/-- The buffer after power-on is in canonical form. -/
theorem Memory.wf_reset : Memory.wf State.reset.buf = true := rfl

/-- Reading a buffer whose offsets are a range gives a byte at exactly those offsets. -/
theorem Memory.read_isSome_of_range' (m : Memory) (a n k : Nat) (h : m.map Prod.fst = List.range' a n) :
    (Memory.read m k).isSome = decide (a ≤ k ∧ k < a + n) := by
  induction m generalizing a n with
  | nil =>
    cases n with
    | zero => simp [Memory.read]
    | succ n => simp [List.range'_succ] at h
  | cons c m ih =>
    cases n with
    | zero => simp at h
    | succ n =>
      rw [List.map_cons, List.range'_succ, List.cons.injEq] at h
      have hm := ih (a + 1) n h.2
      obtain ⟨c1, c2⟩ := c
      simp only at h
      by_cases hk : k = c1
      · subst hk
        simp [Memory.read, List.lookup]
        omega
      · have : (k == c1) = false := by simpa using hk
        simp only [Memory.read, List.lookup, this]
        simp only [Memory.read] at hm
        rw [hm]
        simp only [decide_eq_decide]
        omega

end Sys2Proof.Machine
end

