-- ==== Sys2Proof/Laws/PerInstr.lean ====
section
/-! SUPPORT. A fact about every instruction as syntax, one lemma per constructor: its encoding is 1 to 6 bytes long
(30_encoding.md rule R58), and begins with the row's descriptor bytes. -/

namespace Sys2Proof.Laws.EncodeLength

open Sys2Proof Sys2Proof.Machine

/-- The encoding is as long as the row's one or two descriptor bytes and at most four bytes after them. -/
def Statement (i : Instr) : Prop :=
  i.rowId.opcodeMask.bytes ≤ (encode i).length ∧ (encode i).length ≤ i.rowId.opcodeMask.bytes + 4

theorem dispLen_le (rm : RmForm) : rm.dispLen ≤ 2 := by cases rm <;> simp [RmForm.dispLen]

theorem dataLen_le (data : ImmData) : data.dataLen ≤ 2 := by cases data <;> simp [ImmData.dataLen]

theorem every (i : Instr) : Statement i := by
  cases i <;> simp only [Statement, Instr.rowId, RowId.opcodeMask, encode, wordBytes, List.length_append,
    List.length_cons, List.length_nil, dispBytes_length, dataBytes_length]
  case movRmReg rm | addRmReg rm | adcRmReg rm | subRmReg rm | sbbRmReg rm | cmpRmReg rm | xchgRmReg rm | movSegRm rm
    | movRmSeg rm | pushRm rm | popRm rm | lea rm | lds rm | les rm | incRm rm | decRm rm | negRm rm | mulRm rm
    | imulRm rm | divRm rm | idivRm rm =>
    have := dispLen_le rm
    omega
  case movRmImm rm data | addRmImm rm data | adcRmImm rm data | subRmImm rm data | sbbRmImm rm data
    | cmpRmImm rm data =>
    have h1 := dispLen_le rm
    have h2 := dataLen_le data
    omega
  case movRegImm data | addAccImm data | adcAccImm data | subAccImm data | sbbAccImm data | cmpAccImm data =>
    have := dataLen_le data
    have : 1 ≤ data.dataLen := by cases data <;> simp [ImmData.dataLen]
    omega
  all_goals omega

theorem movRmReg (d : Bool) (w : Bool) (reg : Reg3) (rm : RmForm) : Statement (.movRmReg d w reg rm) := every _

theorem movRmImm (w : Bool) (rm : RmForm) (data : ImmData) : Statement (.movRmImm w rm data) := every _

theorem movRegImm (w : Bool) (reg : Reg3) (data : ImmData) : Statement (.movRegImm w reg data) := every _

theorem movAccMem (w : Bool) (addr : Word) : Statement (.movAccMem w addr) := every _

theorem movMemAcc (w : Bool) (addr : Word) : Statement (.movMemAcc w addr) := every _

theorem movSegRm (sr : Seg2) (rm : RmForm) : Statement (.movSegRm sr rm) := every _

theorem movRmSeg (sr : Seg2) (rm : RmForm) : Statement (.movRmSeg sr rm) := every _

theorem pushRm (rm : RmForm) : Statement (.pushRm rm) := every _

theorem pushReg (reg : Reg3) : Statement (.pushReg reg) := every _

theorem pushSeg (sr : Seg2) : Statement (.pushSeg sr) := every _

theorem popRm (rm : RmForm) : Statement (.popRm rm) := every _

theorem popReg (reg : Reg3) : Statement (.popReg reg) := every _

theorem popSeg (sr : Seg2) : Statement (.popSeg sr) := every _

theorem xchgRmReg (w : Bool) (reg : Reg3) (rm : RmForm) : Statement (.xchgRmReg w reg rm) := every _

theorem xchgAccReg (reg : Reg3) : Statement (.xchgAccReg reg) := every _

theorem inFixed (w : Bool) (port : Byte) : Statement (.inFixed w port) := every _

theorem inDx (w : Bool) : Statement (.inDx w) := every _

theorem outFixed (w : Bool) (port : Byte) : Statement (.outFixed w port) := every _

theorem outDx (w : Bool) : Statement (.outDx w) := every _

theorem xlat : Statement .xlat := every _

theorem lea (reg : Reg3) (rm : RmForm) : Statement (.lea reg rm) := every _

theorem lds (reg : Reg3) (rm : RmForm) : Statement (.lds reg rm) := every _

theorem les (reg : Reg3) (rm : RmForm) : Statement (.les reg rm) := every _

theorem lahf : Statement .lahf := every _

theorem sahf : Statement .sahf := every _

theorem pushf : Statement .pushf := every _

theorem popf : Statement .popf := every _

theorem addRmReg (d : Bool) (w : Bool) (reg : Reg3) (rm : RmForm) : Statement (.addRmReg d w reg rm) := every _

theorem addRmImm (s : Bool) (w : Bool) (rm : RmForm) (data : ImmData) : Statement (.addRmImm s w rm data) := every _

theorem addAccImm (w : Bool) (data : ImmData) : Statement (.addAccImm w data) := every _

theorem adcRmReg (d : Bool) (w : Bool) (reg : Reg3) (rm : RmForm) : Statement (.adcRmReg d w reg rm) := every _

theorem adcRmImm (s : Bool) (w : Bool) (rm : RmForm) (data : ImmData) : Statement (.adcRmImm s w rm data) := every _

theorem adcAccImm (w : Bool) (data : ImmData) : Statement (.adcAccImm w data) := every _

theorem incRm (w : Bool) (rm : RmForm) : Statement (.incRm w rm) := every _

theorem incReg (reg : Reg3) : Statement (.incReg reg) := every _

theorem aaa : Statement .aaa := every _

theorem daa : Statement .daa := every _

theorem subRmReg (d : Bool) (w : Bool) (reg : Reg3) (rm : RmForm) : Statement (.subRmReg d w reg rm) := every _

theorem subRmImm (s : Bool) (w : Bool) (rm : RmForm) (data : ImmData) : Statement (.subRmImm s w rm data) := every _

theorem subAccImm (w : Bool) (data : ImmData) : Statement (.subAccImm w data) := every _

theorem sbbRmReg (d : Bool) (w : Bool) (reg : Reg3) (rm : RmForm) : Statement (.sbbRmReg d w reg rm) := every _

theorem sbbRmImm (s : Bool) (w : Bool) (rm : RmForm) (data : ImmData) : Statement (.sbbRmImm s w rm data) := every _

theorem sbbAccImm (w : Bool) (data : ImmData) : Statement (.sbbAccImm w data) := every _

theorem decRm (w : Bool) (rm : RmForm) : Statement (.decRm w rm) := every _

theorem decReg (reg : Reg3) : Statement (.decReg reg) := every _

theorem negRm (w : Bool) (rm : RmForm) : Statement (.negRm w rm) := every _

theorem cmpRmReg (d : Bool) (w : Bool) (reg : Reg3) (rm : RmForm) : Statement (.cmpRmReg d w reg rm) := every _

theorem cmpRmImm (s : Bool) (w : Bool) (rm : RmForm) (data : ImmData) : Statement (.cmpRmImm s w rm data) := every _

theorem cmpAccImm (w : Bool) (data : ImmData) : Statement (.cmpAccImm w data) := every _

theorem aas : Statement .aas := every _

theorem das : Statement .das := every _

theorem mulRm (w : Bool) (rm : RmForm) : Statement (.mulRm w rm) := every _

theorem imulRm (w : Bool) (rm : RmForm) : Statement (.imulRm w rm) := every _

theorem aam : Statement .aam := every _

theorem divRm (w : Bool) (rm : RmForm) : Statement (.divRm w rm) := every _

theorem idivRm (w : Bool) (rm : RmForm) : Statement (.idivRm w rm) := every _

theorem aad : Statement .aad := every _

theorem cbw : Statement .cbw := every _

theorem cwd : Statement .cwd := every _

end Sys2Proof.Laws.EncodeLength
end

