-- ==== Sys2Proof/Tests/Slice0.lean ====
section
/-! SUPPORT. Tests. Expected results come from the spec: the examples of the rows' own rules (45_fmt_data_transfer.md,
46_fmt_arithmetic.md), of the other rules named, and of 95_test_vectors.md. The second part holds a witness for every
statement of Certificates/Slice0 that has hypotheses, one for each of its clauses. -/

namespace Sys2Proof.Tests

open Sys2Proof Sys2Proof.Machine

/-! ### Helpers -/

/-- These bytes loaded, the cursor at the first, and these operations issued. -/
def loaded (bytes : List Byte) (ops : List HostOp) : State :=
  { State.reset with buf := Memory.ofBytes bytes, len := bytes.length, ops := ops }

/-- The state after a truncation, with these operations issued. -/
def broken (ops : List HostOp) : State := { loaded [0x89] ops with status := .fatal, fatalPos := 1 }

/-- The next state, where there is one. -/
def goesOn (r : Result) : Option State :=
  match r with
  | .next t => some t
  | .fault _ => none
  | .refused _ => none

theorem next_of_goesOn {r : Result} {t : State} (h : goesOn r = some t) : r = .next t := by
  cases r <;> simp_all [goesOn]

/-- The last reply after a step. -/
def lastReply (s : State) : Option Reply := (goesOn (step s)).bind fun t => t.replies.getLast?

/-- The lines that one NEXT on these bytes prints. -/
def printed (bytes : List Byte) : Option (List String) := (goesOn (step (loaded bytes [.next]))).map State.outputLines

/-- `CUR`, `LGP`, `STATUS` after a step. -/
def registers (s : State) : Option (Nat × Nat × Status) := (goesOn (step s)).map fun t => (t.cur, t.lgp, t.status)

/-! ### WellFormed: one ill-formed term for each check -/

/-- `MOD = 00`, `RM = 110` is the direct form, not base/index form 6 (42_decoder.md rule R102). -/
theorem test_wf_refuses_mem0_six :
    (Instr.movRmReg true true 0 (.mem0 6)).wf = false ∧ (Instr.incRm false (.mem0 6)).wf = false ∧
    (Instr.addRmImm false false (.mem0 6) (.byte 0)).wf = false := by decide

/-- The data's width is the one `W` gives (42_decoder.md rule R104). -/
theorem test_wf_refuses_data_of_the_wrong_width :
    (Instr.movRegImm true 0 (.byte 0)).wf = false ∧ (Instr.movRmImm false (.reg 0) (.word 0)).wf = false := by decide

/-- `S = 1` takes one byte whatever `W` is (42_decoder.md rule R104). -/
theorem test_wf_refuses_wide_data_with_s :
    (Instr.addRmImm true true (.reg 0) (.word 0)).wf = false ∧ (Instr.cmpRmImm false true (.reg 0) (.byte 0)).wf = false :=
  by decide

/-! ### Decoding: a word for every row, from its rule's examples -/

/-- Rules R145 to R157. -/
theorem test_decode_mov_push_pop :
    decode [0x89, 0xD8] = .matched (.movRmReg false true 3 (.reg 0), 2) ∧
    decode [0xC6, 0x07, 0x05] = .matched (.movRmImm false (.mem0 7) (.byte 5), 3) ∧
    decode [0xB9, 0xF4, 0x01] = .matched (.movRegImm true 1 (.word 500), 3) ∧
    decode [0xA1, 0xFB, 0x09] = .matched (.movAccMem true 2555, 3) ∧
    decode [0xA3, 0xFA, 0x09] = .matched (.movMemAcc true 2554, 3) ∧
    decode [0x8E, 0xD8] = .matched (.movSegRm 3 (.reg 0), 2) ∧
    decode [0x8C, 0x5F, 0x02] = .matched (.movRmSeg 3 (.mem8 7 2), 3) ∧
    decode [0xFF, 0x36, 0x00, 0x10] = .matched (.pushRm (.direct 0x1000), 4) ∧
    decode [0x57] = .matched (.pushReg 7, 1) ∧
    decode [0x1E] = .matched (.pushSeg 3, 1) ∧
    decode [0x8F, 0xC1] = .matched (.popRm (.reg 1), 2) ∧
    decode [0x5C] = .matched (.popReg 4, 1) ∧
    decode [0x0F] = .matched (.popSeg 1, 1) := by decide

/-- Rules R158 to R171. -/
theorem test_decode_xchg_to_popf :
    decode [0x86, 0x27] = .matched (.xchgRmReg false 4 (.mem0 7), 2) ∧
    decode [0x93] = .matched (.xchgAccReg 3, 1) ∧
    decode [0xE4, 0xC8] = .matched (.inFixed false 0xC8, 2) ∧
    decode [0xED] = .matched (.inDx true, 1) ∧
    decode [0xE7, 0x80] = .matched (.outFixed true 0x80, 2) ∧
    decode [0xEE] = .matched (.outDx false, 1) ∧
    decode [0xD7] = .matched (.xlat, 1) ∧
    decode [0x8D, 0x81, 0x8C, 0x05] = .matched (.lea 0 (.mem16 1 0x058C), 4) ∧
    decode [0xC5, 0x16, 0x10, 0x00] = .matched (.lds 2 (.direct 0x0010), 4) ∧
    decode [0xC4, 0x86, 0x00, 0x01] = .matched (.les 0 (.mem16 6 0x0100), 4) ∧
    decode [0x9F] = .matched (.lahf, 1) ∧ decode [0x9E] = .matched (.sahf, 1) ∧
    decode [0x9C] = .matched (.pushf, 1) ∧ decode [0x9D] = .matched (.popf, 1) := by decide

/-- Rules R172 to R187. -/
theorem test_decode_add_to_sbb :
    decode [0x03, 0x18] = .matched (.addRmReg true true 3 (.mem0 0), 2) ∧
    decode [0x81, 0xC4, 0x88, 0x01] = .matched (.addRmImm false true (.reg 4) (.word 0x0188), 4) ∧
    decode [0x05, 0xE8, 0x03] = .matched (.addAccImm true (.word 1000), 3) ∧
    decode [0x11, 0xC3] = .matched (.adcRmReg false true 0 (.reg 3), 2) ∧
    decode [0x82, 0xD1, 0xFF] = .matched (.adcRmImm true false (.reg 1) (.byte 0xFF), 3) ∧
    decode [0x14, 0x7F] = .matched (.adcAccImm false (.byte 0x7F), 2) ∧
    decode [0xFE, 0xC0] = .matched (.incRm false (.reg 0), 2) ∧
    decode [0x47] = .matched (.incReg 7, 1) ∧ decode [0x37] = .matched (.aaa, 1) ∧ decode [0x27] = .matched (.daa, 1) ∧
    decode [0x2B, 0x1C] = .matched (.subRmReg true true 3 (.mem0 4), 2) ∧
    decode [0x83, 0xEC, 0x02] = .matched (.subRmImm true true (.reg 4) (.byte 2), 3) ∧
    decode [0x2D, 0x00, 0x80] = .matched (.subAccImm true (.word 0x8000), 3) ∧
    decode [0x19, 0xD8] = .matched (.sbbRmReg false true 3 (.reg 0), 2) ∧
    decode [0x80, 0x1E, 0x00, 0x10, 0x05] = .matched (.sbbRmImm false false (.direct 0x1000) (.byte 5), 5) ∧
    decode [0x1C, 0x80] = .matched (.sbbAccImm false (.byte 0x80), 2) := by decide

/-- Rules R188 to R203. -/
theorem test_decode_dec_to_cwd :
    decode [0xFE, 0x0F] = .matched (.decRm false (.mem0 7), 2) ∧ decode [0x4E] = .matched (.decReg 6, 1) ∧
    decode [0xF7, 0xD8] = .matched (.negRm true (.reg 0), 2) ∧
    decode [0x3B, 0x7E, 0x04] = .matched (.cmpRmReg true true 7 (.mem8 6 4), 3) ∧
    decode [0x83, 0x3E, 0xE2, 0x12, 0x14] = .matched (.cmpRmImm true true (.direct 0x12E2) (.byte 0x14), 5) ∧
    decode [0x3D, 0x00, 0x01] = .matched (.cmpAccImm true (.word 0x0100), 3) ∧
    decode [0x3F] = .matched (.aas, 1) ∧ decode [0x2F] = .matched (.das, 1) ∧
    decode [0xF7, 0x26, 0x00, 0x02] = .matched (.mulRm true (.direct 0x0200), 4) ∧
    decode [0xF7, 0x6F, 0x04] = .matched (.imulRm true (.mem8 7 4), 3) ∧
    decode [0xD4, 0x0A] = .matched (.aam, 2) ∧
    decode [0xF6, 0x34] = .matched (.divRm false (.mem0 4), 2) ∧
    decode [0xF7, 0x7E, 0xFE] = .matched (.idivRm true (.mem8 6 0xFE), 3) ∧
    decode [0xD5, 0x0A] = .matched (.aad, 2) ∧ decode [0x98] = .matched (.cbw, 1) ∧ decode [0x99] = .matched (.cwd, 1) :=
  by decide

/-- Bytes that are no instruction, by name (rules R68, R69, R71 of 30_encoding.md; R198 and R207). -/
theorem test_decode_rejects :
    decode [0x26, 0x89, 0xD8] = .noMatch ∧ decode [0x80, 0xC8, 0x01] = .noMatch ∧ decode [0xFE, 0x30] = .noMatch ∧
    decode [0xD4, 0x0B] = .noMatch ∧ decode [0x8E, 0x38] = .noMatch ∧ decode [0xD4] = .truncated 1 ∧
    decode [0xC7, 0x86, 0x10, 0x00, 0x34] = .truncated 5 ∧ decode [] = .truncated 0 := by decide

/-- The opcode table's own numbering of a word: the first byte on top (rows F01 and F54 of spec/opcode_table.json). -/
theorem test_table_words :
    decodeTableWord 16 0x8800 = some (.movRmReg false false 0 (.mem0 0)) ∧ decodeTableWord 16 0xD40A = some .aam ∧
    decodeTableWord 8 0xB0 = some (.movRegImm false 0 (.byte 0)) ∧ decodeTableWord 8 0x26 = none := by decide

/-- A table word placed runs at once. -/
theorem test_placed_word_runs :
    lastReply (State.reset.withFetchWord 16 0xD40A) =
      some (.next (.instr ⟨.aam, .none, .none⟩ false 2 53)) := by decide

/-! ### The format table -/

/-- The reference table and its checks (30_encoding.md rules R47 to R55 and R65): rows that each fail one check. -/
theorem test_table_checks :
    tableRefusedBy 16 refTable = none ∧
    tableRefusedBy 16 [⟨.mov, [.field .w 1, .literal 7 0]⟩] = some .wf1 ∧
    tableRefusedBy 3 [⟨.mov, [.literal 7 0, .field .w 1, .implied .d 0, .implied .s 0]⟩] = some .wf2 ∧
    tableRefusedBy 16 [⟨.mov, [.literal 8 0, .implied .reserved14 0]⟩] = some .wf3 ∧
    tableRefusedBy 16 [⟨.mov, [.literal 7 0, .field .reg 3, .literal 6 0]⟩] = some .wf4 ∧
    tableRefusedBy 16 [⟨.mov, [.literal 6 0, .field .w 2]⟩] = some .wf5 ∧
    tableRefusedBy 16 [⟨.mov, [.literal 6 0, .field .w 1, .field .w 1]⟩] = some .wf6 ∧
    tableRefusedBy 16 [⟨.mov, [.literal 8 0, .implied .w 2]⟩] = some .wf7 ∧
    tableRefusedBy 16 [] = some .wf8 ∧ tableRefusedBy 16 [⟨.none, [.literal 8 0]⟩] = some .wf8 := by decide

/-- A ROM image whose tag code is 34, the last that names an operation, and ones whose code is 35 and 255, which a row
header can hold and WF8 refuses (30_encoding.md rules R44, R45, R46 and R54). -/
theorem test_tag_codes :
    (tableOfRom [0x2201, 0x0899]).map (tableRefusedBy 16) = some none ∧
    (tableOfRom [0x2301, 0x0899]).map (tableRefusedBy 16) = some (some .wf8) ∧
    (tableOfRom [0xFF01, 0x0899]).map (tableRefusedBy 16) = some (some .wf8) ∧
    tableOfRom [0x2202, 0x0899] = none := by decide

/-- WF9 goes by the value that stands, the last (30_encoding.md rule R55, 41_extraction_engine.md rule R95): a row with
both operands whose data are taken back, one whose data come back, one that never had any. -/
theorem test_wf9_last_value_wins :
    Row.wf9 ⟨.mov, [.literal 2 0, .field .reg 3, .field .rm 3, .implied .hasData 1, .implied .hasData 0]⟩ = true ∧
    Row.wf9 ⟨.mov, [.literal 2 0, .field .reg 3, .field .rm 3, .implied .hasData 0, .implied .hasData 1]⟩ = false ∧
    Row.wf9 ⟨.mov, [.literal 2 0, .field .reg 3, .field .rm 3]⟩ = true := by decide

/-! ### The decode loop -/

/-- The three ends of a run (43_stream_driver.md rule R130), with the lines before them, and an instance that refuses. -/
theorem test_decode_loop :
    (decodeImage step [0x89, 0xD8, 0x37] State.reset).map (fun r => (r.lines, r.finish)) =
      some (["mov ax, bx", "aaa"], .success) ∧
    (decodeImage step [0x50, 0x26] State.reset).map (fun r => (r.lines, r.finish)) =
      some (["push ax"], .unmatched 1) ∧
    (decodeImage step [0x50, 0x89] State.reset).map (fun r => (r.lines, r.finish)) = some (["push ax"], .missing 2) ∧
    (decodeImage (stepOf { refParams with formatTable := [] }) [0x50] State.reset).map (fun r => (r.lines, r.finish)) =
      some ([], .refused) := by decide

/-- ROM words (30_encoding.md rules R44 and R45). -/
theorem test_rom_words :
    (Descriptor.literal 6 0b100010).toWord = 0x0622 ∧ (Descriptor.implied .w 1).toWord = 0x5001 ∧
    RowId.f09.row.toRom = [0x0204, 0x050A, 0x2300, 0x5001, 0x4001] := by decide

/-! ### One step -/

/-- NEXT on the first example of several rules: the text (44_rendering.md). -/
theorem test_text_of_examples :
    printed [0x89, 0xD8] = some ["mov ax, bx"] ∧ printed [0x8B, 0x00] = some ["mov ax, [bx + si]"] ∧
    printed [0x8B, 0x2E, 0x27, 0x00] = some ["mov bp, [39]"] ∧
    printed [0xC7, 0x86, 0x10, 0x00, 0x34, 0x12] = some ["mov [bp + 16], word 4660"] ∧
    printed [0x8C, 0xC8] = some ["mov ax, cs"] ∧ printed [0xFF, 0x36, 0x00, 0x10] = some ["push word [4096]"] ∧
    printed [0xE6, 0x2C] = some ["out byte 44, al"] ∧ printed [0xEC] = some ["in al, dx"] ∧
    printed [0x8D, 0x5E, 0xCE] = some ["lea bx, [bp - 50]"] ∧ printed [0x83, 0xC6, 0x02] = some ["add si, byte 2"] ∧
    printed [0xFE, 0x0F] = some ["dec byte [bx]"] ∧ printed [0xD5, 0x0A] = some ["aad"] := by decide

/-- NEXT commits (43_stream_driver.md rule R124); TRY leaves `LGP` (42_decoder.md rule R116, its example). -/
theorem test_next_and_try_registers :
    registers (loaded [0x89, 0xD8, 0x50] [.next]) = some (2, 2, .ready) ∧
    registers (loaded [0x50] [.tryRow 8]) = some (1, 0, .ready) ∧
    registers (loaded [0x50] [.tryRow 0]) = some (0, 0, .ready) ∧
    lastReply (loaded [0x50] [.tryRow 8]) = some (.tried (.instr ⟨.push, .reg 0 true, .none⟩ true 1 8)) ∧
    lastReply (loaded [0x50] [.tryRow 59]) = some (.tried .refused) := by decide

/-- Errors (60_exceptions.md rules R205, R206, R207 with its example, R209). -/
theorem test_errors :
    registers (loaded [0x80, 0xC8, 0x01] [.next]) = some (0, 0, .noMatch) ∧
    (goesOn (step (loaded [0x80, 0xC8, 0x01] [.next]))).map (State.errorLines refDiagText) =
      some ["unrecognized instruction at offset 0: 80"] ∧
    (goesOn (step (loaded [0xC7, 0x86, 0x10, 0x00, 0x34] [.next]))).map (fun t => (t.status, t.fatalPos, t.cur)) =
      some (.fatal, 5, 0) ∧
    lastReply (loaded [] [.next]) = some (.next .endOfStream) ∧ lastReply (broken [.next]) = some (.next .fatal) ∧
    lastReply (broken [.status]) = some (.status .fatal 0 0 1 (some 1)) ∧
    registers (broken [.reset]) = some (0, 0, .ready) := by decide

/-- LOAD (43_stream_driver.md rule R118, its example). -/
theorem test_load :
    (goesOn (step (broken [.load [0x89, 0xD8]]))).map (fun t => (t.buf, t.len, t.cur, t.lgp, t.status)) =
      some ([(0, 0x89), (1, 0xD8)], 2, 0, 0, .ready) := by decide

/-- Equality (40_operand_model.md rule R85, its examples). -/
theorem test_immediate_equality :
    (Operand.imm 0x00FF false).eqBy .byteTruncated (.imm 0xFFFF false) = true ∧
    (Operand.imm 0x00FF true).eqBy .byteTruncated (.imm 0xFFFF true) = false ∧
    (Operand.imm 5 false).eqBy .byteTruncated (.imm 5 true) = false ∧
    (Operand.imm 0x00FF false).eqBy .full16 (.imm 0xFFFF false) = false := by decide

/-! ### Witnesses: power-on, LOAD, RESET, STATUS -/

/-- ResetAndLoadValues, LoadReplacesTheBuffer, ResetRestartsTheImage (both clauses), at an empty image and offsets on
either side of the end of one. -/
theorem witness_load_reset :
    (loaded [0x89] [.reset]).ops = [.reset] ∧ (loaded [] [.load []]).ops = [.load []] ∧
    (broken [.load [0x89, 0xD8]]).ops = [.load [0x89, 0xD8]] ∧ 1 < min [0x89, 0xD8].length 262144 ∧
    min [0x89, 0xD8].length 262144 ≤ 2 ∧ (broken [.reset]).status = .fatal ∧
    (goesOn (step (broken [.reset]))).map (fun t => decide (t.status ≠ .fatal)) = some true := by decide

/-- StatusReportsAndChangesNothing. -/
theorem witness_status :
    (broken [.status]).ops = [.status] ∧ (broken [.status]).status = .fatal ∧ (loaded [] [.status]).ops = [.status] ∧
    (loaded [] [.status]).status ≠ .fatal := by decide

/-! ### Witnesses: NEXT -/

/-- NextWhileFatal; NextAtTheEnd, twice; NextWithNoMatchingRow. -/
theorem witness_next :
    (broken [.next]).ops.head? = some .next ∧ (broken [.next]).status = .fatal ∧
    (loaded [] [.next, .next]).NextIssued ∧ (loaded [] [.next, .next]).len ≤ (loaded [] [.next, .next]).cur ∧
    (goesOn (step (loaded [] [.next, .next]))).map (fun t => t.ops.head?) = some (some .next) ∧
    (loaded [0x26] [.next]).NextIssued ∧ (loaded [0x26] [.next]).cur < (loaded [0x26] [.next]).len ∧
    decodeAt (loaded [0x26] [.next]).reader 0 = .noMatch := by decide

/-- FirstRowInOrderDecides: the second row decides, with a match and with a truncation. -/
theorem witness_row_order :
    refParams.tableAccepted = true ∧
    refParams.formatTable = [RowId.f01.row] ++ RowId.f02.row :: refParams.formatTable.drop 2 ∧
    (loaded [0xC6, 0x07, 0x05] [.next]).NextIssued ∧ (loaded [0xC6, 0x07] [.next]).NextIssued ∧
    (∀ q ∈ [RowId.f01.row], tryCore (loaded [0xC6, 0x07, 0x05] [.next]).reader 0 q = .noMatch) ∧
    (∀ q ∈ [RowId.f01.row], tryCore (loaded [0xC6, 0x07] [.next]).reader 0 q = .noMatch) ∧
    tryCore (loaded [0xC6, 0x07, 0x05] [.next]).reader 0 RowId.f02.row =
      .matched ⟨⟨.mov, .mem (.base 7) 0, .imm 5 false⟩, false, 3⟩ ∧
    tryCore (loaded [0xC6, 0x07] [.next]).reader 0 RowId.f02.row = .truncated 2 := by decide

/-- NextCommitsTheMatch and StepRunsTheDecodedInstruction, NEXT and TRY. -/
theorem witness_match :
    (loaded [0x50] [.next]).NextIssued ∧ (loaded [0x50] [.next]).cur < (loaded [0x50] [.next]).len ∧
    decodeAt (loaded [0x50] [.next]).reader 0 = .matched (.pushReg 0, 1) ∧
    (loaded [0x50] [.tryRow 8]).TryIssued RowId.f09.index ∧
    decodeRow (loaded [0x50] [.tryRow 8]).reader 0 .f09 = .matched (.pushReg 0, 1) := by decide

/-- NoMatchRepeats. -/
theorem witness_noMatch_repeats :
    (loaded [0x26] [.next, .next]).ops = .next :: .next :: [] ∧
    step (loaded [0x26] [.next, .next]) = .next (afterNextNoMatch (loaded [0x26] [.next, .next]) 0x26) ∧
    (afterNextNoMatch (loaded [0x26] [.next, .next]) 0x26).replies = [] ++ [.next .noMatch] :=
  ⟨rfl, next_of_goesOn (by decide), rfl⟩

/-! ### Witnesses: TRY, errors, registers -/

/-- TryRowOutcomes: every clause, and the indices 58 and 59 on either side of the table's end. -/
theorem witness_try :
    (broken [.tryRow 58]).ops.head? = some (.tryRow 58) ∧ RowId.f59.index = 58 ∧ (broken [.tryRow 58]).status = .fatal ∧
    (loaded [0x99] [.tryRow 58]).TryIssued 58 ∧
    tryCore (loaded [0x99] [.tryRow 58]).reader 0 RowId.f59.row = .matched ⟨⟨.cwd, .none, .none⟩, false, 1⟩ ∧
    tryCore (loaded [0x98] [.tryRow 58]).reader 0 RowId.f59.row = .noMatch ∧
    tryCore (loaded [0x89] [.tryRow 0]).reader 0 RowId.f01.row = .truncated 1 ∧
    (loaded [] [.tryRow 58]).len ≤ (loaded [] [.tryRow 58]).cur ∧
    (loaded [] [.tryRow 59]).TryIssued 59 ∧ 59 ≤ 59 ∧ (broken [.tryRow 59]).ops.head? = some (.tryRow 59) := by decide

/-- TruncationIsRecorded, NEXT and TRY. -/
theorem witness_truncation :
    (loaded [0x89] [.next]).NextIssued ∧ (loaded [0x89] [.next]).cur < (loaded [0x89] [.next]).len ∧
    decodeAt (loaded [0x89] [.next]).reader 0 = .truncated 1 ∧
    (loaded [0x89] [.tryRow 0]).TryIssued RowId.f01.index ∧
    decodeRow (loaded [0x89] [.tryRow 0]).reader 0 .f01 = .truncated 1 := by decide

/-- FatalIsSticky: each operation, TRY with an index on either side of the table's end. -/
theorem witness_fatal :
    (broken [.next]).ops = [.next] ∧ (broken [.tryRow 58]).ops = [.tryRow 58] ∧ 58 < 59 ∧
    (broken [.tryRow 59]).ops = [.tryRow 59] ∧ 59 ≤ 59 ∧ (broken [.status]).ops = [.status] ∧
    (broken [.reset]).ops = [.reset] ∧ (broken [.load []]).ops = [.load []] ∧ (broken []).status = .fatal := by decide

/-- StatusRecordsTheLastNext: a TRY that answers `FATAL`, and one that does not. -/
theorem witness_try_status :
    (loaded [0x89] [.tryRow 0]).ops = .tryRow 0 :: [] ∧
    step (loaded [0x89] [.tryRow 0]) = .next (afterTryTruncated (loaded [0x89] [.tryRow 0]) 1) ∧
    (afterTryTruncated (loaded [0x89] [.tryRow 0]) 1).replies = [] ++ [.tried .fatal] ∧
    step (loaded [0x26] [.tryRow 0]) = .next (afterTryReply (loaded [0x26] [.tryRow 0]) .noMatch) ∧
    (afterTryReply (loaded [0x26] [.tryRow 0]) .noMatch).replies ≠ [] ++ [.tried .fatal] :=
  ⟨rfl, next_of_goesOn (by decide), rfl, next_of_goesOn (by decide), by decide⟩

/-- ErrorsArePrecise, BufferWrittenOnlyByLoad, CursorMovesByInstructions, OneReplyPerOperation, StatusRecordsTheLastNext:
a step that goes on, with an error reply and without. -/
theorem witness_steps :
    step (loaded [0x26] [.next]) = .next (afterNextNoMatch (loaded [0x26] [.next]) 0x26) ∧
    (afterNextNoMatch (loaded [0x26] [.next]) 0x26).replies = (loaded [0x26] [.next]).replies ++ [.next .noMatch] ∧
    Response.noMatch.code ≠ 0 ∧
    step (loaded [0x26] [.tryRow 0]) = .next (afterTryReply (loaded [0x26] [.tryRow 0]) .noMatch) ∧
    (afterTryReply (loaded [0x26] [.tryRow 0]) .noMatch).replies = [] ++ [.tried .noMatch] ∧
    (∀ bytes, (loaded [0x26] [.next]).ops.head? ≠ some (.load bytes)) ∧
    (loaded [0x26] [.next]).ops.head? ≠ some .reset ∧ (loaded [0x26] [.next]).ops = [.next] ∧
    (loaded [0x26] []).ops = [] ∧ (loaded [0x26] [.tryRow 0]).ops = [.tryRow 0] :=
  ⟨next_of_goesOn (by decide), rfl, by decide, next_of_goesOn (by decide), rfl, fun _ => by simp [loaded], by decide, rfl,
    rfl, rfl⟩

/-- StatusRecordsTheLastNext and LastGoodPosition: each operation goes on, from `LGP = CUR`, and one leaves `FATAL`. -/
theorem witness_each_operation :
    ([HostOp.reset, .load [0x50], .status, .tryRow 8, .next].all fun op =>
      (goesOn (step (loaded [0x50] [op]))).isSome && (loaded [0x50] [op]).lgp == (loaded [0x50] [op]).cur) = true ∧
    (broken [.reset]).status = .fatal ∧
    (goesOn (step (broken [.reset]))).map (fun t => decide (t.status ≠ .fatal)) = some true := by decide

/-- StepKeepsSound, SoundStateAlwaysAnswers and ReadsOfTheBuffer: sound states, in `FATAL` too, that a step goes on from;
and, for the reads, an offset on either side of the end and the last pair. -/
theorem witness_sound :
    (loaded [0x89, 0xD8] [.next]).Sound ∧ (broken [.status]).Sound ∧
    step (loaded [0x89, 0xD8] [.next]) = .next (afterNext (loaded [0x89, 0xD8] [.next])
      ⟨.mov, .reg 0 true, .reg 3 true⟩ true 2 0) ∧
    1 < (loaded [0x89, 0xD8] []).len ∧ (loaded [0x89, 0xD8] []).len ≤ 2 ∧ (loaded [0x89, 0xD8] []).len ≤ 1 + 1 ∧
    0 + 1 < (loaded [0x89, 0xD8] []).len :=
  ⟨⟨by decide, by decide, by decide, by decide, by decide⟩, ⟨by decide, by decide, by decide, by decide, by decide⟩,
    next_of_goesOn (by decide), by decide, by decide, by decide, by decide⟩

/-! ### Witnesses: decoding -/

/-- DecodeInvertsEncode, EncodeInvertsDecode, ConcatenationDecodesToItsParts, EveryMeaningCompletes. -/
theorem witness_encode :
    (Instr.addRmImm true true (.mem8 6 0) (.byte 0xFF)).wf = true ∧
    decode [0x83, 0x46, 0x00, 0xFF, 0x90] = .matched (.addRmImm true true (.mem8 6 0) (.byte 0xFF), 4) ∧
    (∀ i ∈ [Instr.aam, .pushReg 7], i.wf = true) ∧
    ([Instr.aam, .pushReg 7].flatMap encode).length ≤ Config.inputCapacity ∧
    (loaded [] [.tryRow 3]).ops.head? = some (.tryRow 3) ∧
    (∀ k, (loaded [] [.next]).ops.head? ≠ some (.tryRow k)) ∧
    (loaded [] [.next, .reset]).ops = .next :: [.reset] ∧ (loaded [] [.tryRow 3]).ops = .tryRow 3 :: [] ∧
    (loaded [] [.reset]).ops.head? ≠ some .next ∧ (∀ k, (loaded [] [.reset]).ops.head? ≠ some (.tryRow k)) :=
  ⟨by decide, by decide, by decide, by decide, rfl, fun _ => by simp [loaded], rfl, rfl, by decide,
    fun _ => by simp [loaded]⟩

/-- IllFormedTableIsRefused: a table that breaks each check, at the boundary of its range; one the model names; and a
RESET. -/
theorem witness_refused_table :
    TableFails 16 [⟨.mov, []⟩] .wf1 ∧ TableFails 16 [⟨.mov, [.field .w 1, .literal 7 0]⟩] .wf1 ∧
    TableFails 1 [⟨.mov, [.literal 7 0, .field .w 1]⟩] .wf2 ∧
    TableFails 16 [⟨.mov, [.literal 8 0, .implied .reserved14 0]⟩] .wf3 ∧
    TableFails 16 [⟨.mov, [.literal 7 0, .field .reg 3, .literal 6 0]⟩] .wf4 ∧
    TableFails 16 [⟨.mov, [.literal 7 0]⟩] .wf4 ∧ TableFails 16 [⟨.mov, [.literal 8 256]⟩] .wf5 ∧
    TableFails 16 [⟨.mov, [.literal 6 0, .field .w 2]⟩] .wf5 ∧
    TableFails 16 [⟨.mov, [.literal 6 0, .field .w 1, .field .w 1]⟩] .wf6 ∧
    TableFails 16 [⟨.mov, [.literal 8 0, .implied .w 2]⟩] .wf7 ∧ TableFails 16 [] .wf8 ∧
    TableFails 16 [⟨.none, [.literal 8 0]⟩] .wf8 ∧ TableFails 16 [⟨.unassigned 0, [.literal 8 0]⟩] .wf8 ∧
    tableRefusedBy 16 [⟨.unassigned 0, [.literal 8 0]⟩] = some .wf8 ∧ (loaded [] [.reset]).ops = [.reset] :=
  ⟨.wf1 _ (List.mem_singleton.mpr rfl) (by simp), .wf1 _ (List.mem_singleton.mpr rfl) (by simp [Descriptor.field]),
    .wf2 _ (List.mem_singleton.mpr rfl) (by decide),
    .wf3 _ (.implied .reserved14 0) (List.mem_singleton.mpr rfl) (by simp) (by decide),
    .wf4Straddle _ [.literal 7 0] (.field .reg 3) [.literal 6 0] (List.mem_singleton.mpr rfl) rfl (by decide) (by decide),
    .wf4Total _ (List.mem_singleton.mpr rfl) (by decide),
    .wf5Literal _ (.literal 8 256) (List.mem_singleton.mpr rfl) (by simp) rfl (by decide),
    .wf5Field _ (.field .w 2) (List.mem_singleton.mpr rfl) (by simp) (by decide) (by decide) (by decide),
    .wf6 _ [.literal 6 0] (.field .w 1) [] (.field .w 1) [] (List.mem_singleton.mpr rfl) rfl (by decide) rfl (by decide)
      (by decide),
    .wf7 _ (.implied .w 2) 1 (List.mem_singleton.mpr rfl) (by simp) rfl (by decide) (by decide), .wf8Empty rfl,
    .wf8Tag _ (List.mem_singleton.mpr rfl) (by decide), .wf8Tag _ (List.mem_singleton.mpr rfl) (by decide), by decide, rfl⟩

/-- FieldsPartitionWholeBytes and ExtractConsumesWholeBytes. -/
theorem witness_whole_bytes :
    RowId.f09.row.fields = [.literal 5 0b01010] ++ .field .reg 3 :: [.implied .w 1, .implied .d 1] ∧
    0 < (Descriptor.field .reg 3).n ∧ RowId.f09.row.wf4 = true ∧
    ∃ e, Engine.descriptors (listReader [0x57]) RowId.f09.row.fields (Engine.start 0) = .matched e :=
  ⟨rfl, by decide, by decide, _, rfl⟩

/-- RomImageHoldsTheTable: the largest fields, a row, a table. -/
theorem witness_rom :
    (⟨.rmAlwaysW, 8, 255⟩ : Descriptor).wf3 = true ∧ RowId.f09.row.fields.length < 256 ∧
    (∀ r ∈ [RowId.f09.row, RowId.f20.row], r.fields.length < 256 ∧ r.fields.all Descriptor.wf3 = true) := by decide

/-- ReferenceTableIsUnambiguous: a match, a row of each length, an order of the rows other than the table's. -/
theorem witness_unambiguous :
    (∃ x, extract (listReader [0x89, 0xD8]) 0 RowId.f01.row = .matched x) ∧ RowId.f03.opcodeMask.bytes = 1 ∧
    RowId.f01.opcodeMask.bytes = 2 ∧ RowId.all.reverse.Perm RowId.all :=
  ⟨⟨_, rfl⟩, rfl, rfl, List.reverse_perm _⟩

/-- OpcodeMapByFirstByte and LiteralBitsDecideTheRow: each clause. -/
theorem witness_opcode_map :
    RowId.f08 ∈ opcodeMapRows 0xFF ∧ RowId.f08.opcodeMask.bytes = 2 ∧ RowId.f09.opcodeMask.bytes = 1 ∧
    listReader [0xFF, 0xF0] 0 = .byte 0xFF ∧ listReader [0xFF, 0xF0] (0 + 1) = .byte 0xF0 ∧
    RowId.f09.opcodeMask.firstFits 0x57 = true ∧ RowId.f09.opcodeMask.firstFits 0x58 = false ∧
    RowId.f08.opcodeMask.fits 0xFF 0xF0 = true ∧ RowId.f08.opcodeMask.fits 0xFF 0xF8 = false := by decide

/-- UnmatchedByteSequences: each clause. -/
theorem witness_unmatched :
    (loaded [0x60] [.next]).NextIssued ∧ (loaded [0x60] [.next]).reader 0 = .byte 0x60 ∧ opcodeMapRows 0x60 = [] ∧
    (loaded [0xF3] [.next]).NextIssued ∧ (loaded [0xF3] [.next]).reader 0 = .byte 0xF3 ∧
    (0xF3 : Byte) ∈ ([0x26, 0x2E, 0x36, 0x3E, 0xF0, 0xF2, 0xF3] : List Byte) ∧
    (loaded [0xFE, 0x30] [.next]).NextIssued ∧ (loaded [0xFE, 0x30] [.next]).reader (0 + 1) = .byte 0x30 ∧
    (∀ r ∈ opcodeMapRows 0xFE, r.opcodeMask.bytes = 2 ∧ r.opcodeMask.fits 0xFE 0x30 = false) ∧
    (loaded [0xD5, 0x0B] [.next]).NextIssued ∧ (loaded [0xD5, 0x0B] [.next]).reader 0 = .byte 0xD5 ∧
    (loaded [0xD5, 0x0B] [.next]).reader (0 + 1) = .byte 0x0B ∧ (0x0B : Byte) ≠ 0x0A := by decide

/-! ### Witnesses: the engine and the ten steps -/

/-- TopBitsOfTheByte at the ends of its range; ImpliedDescriptorStoresItsValue. -/
theorem witness_engine :
    8 ≤ (⟨1, 0x89, 8, FieldMap.blank⟩ : Engine).bits ∧ 0 ≤ (⟨1, 0x89, 0, FieldMap.blank⟩ : Engine).bits ∧
    (⟨1, 0x89, 8, FieldMap.blank⟩ : Engine).bits ≤ 8 ∧ FieldKind.w ≠ .lit := by decide

/-- DisplacementByModAndRm: a narrow and a wide displacement, there and cut short. -/
theorem witness_displacement :
    (FieldMap.blank.put .mod 1).dispWide = false ∧ listReader [0x80] 0 = .byte 0x80 ∧
    (FieldMap.blank.put .mod 2).dispWide = true ∧ (FieldMap.blank.put .rm 6).dispWide = true ∧
    listReader [0xFD, 0xFF] 0 = .byte 0xFD ∧ listReader [0xFD, 0xFF] (0 + 1) = .byte 0xFF ∧
    listReader [] 0 = .pastEnd ∧ listReader [0xFD] 0 = .byte 0xFD ∧ listReader [0xFD] (0 + 1) = .pastEnd := by decide

/-- DataByWidthAndSign: two bytes, one sign-extended, one zero-extended, there and cut short. -/
theorem witness_data :
    ((FieldMap.blank.put .dataWFollowsW 1).put .w 1).dataWide = true ∧ listReader [0x88, 0x01] 0 = .byte 0x88 ∧
    listReader [0x88, 0x01] (0 + 1) = .byte 0x01 ∧ (FieldMap.blank.put .s 1).val .s = 1 ∧
    FieldMap.blank.dataWide = false ∧ FieldMap.blank.val .s = 0 ∧ listReader [] 0 = .pastEnd ∧
    listReader [0x88] 0 = .byte 0x88 ∧ listReader [0x88] (0 + 1) = .pastEnd := by decide

/-- SlotsByDirection: both operands, one of each kind, none. -/
theorem witness_slots :
    regLikeOf ((FieldMap.blank.put .reg 3).put .rm 7) = some (.reg 3 false) ∧
    modLikeOf ((FieldMap.blank.put .reg 3).put .rm 7) 0 = some (.mem (.base 7) 0) ∧
    regLikeOf (FieldMap.blank.put .sr 3) = some (.seg 3) ∧ modLikeOf (FieldMap.blank.put .sr 3) 0 = none ∧
    regLikeOf (FieldMap.blank.put .rm 6) = none ∧ modLikeOf (FieldMap.blank.put .rm 6) 39 = some (.mem .direct 39) ∧
    regLikeOf FieldMap.blank = none ∧ modLikeOf FieldMap.blank 0 = none := by decide

/-- DirectionBitSymmetry. -/
theorem witness_direction :
    Instr.movRmReg ∈ [Instr.movRmReg, .addRmReg, .adcRmReg, .subRmReg, .sbbRmReg, .cmpRmReg] ∧
    readerHolds (listReader [0x89, 0xD8]) 0 (encode (.movRmReg false true 3 (.reg 0))) = true ∧
    readerHolds (listReader [0x8B, 0xC3]) 0 (encode (.movRmReg true true 0 (.reg 3))) = true :=
  ⟨by simp, by decide, by decide⟩

/-! ### Witnesses: equality and rendering -/

/-- EqualityIsAnEquivalence, EqualityByKindAndFields, EqualInstructionsRenderTheSame: values that are equal, some not
identical. -/
theorem witness_equality :
    (Operand.imm 0x00FF false).eqBy .byteTruncated (.imm 0xFFFF false) = true ∧
    (Operand.imm 0xFFFF false).eqBy .byteTruncated (.imm 0x12FF false) = true ∧
    (Operand.reg 3 true).eqBy .full16 (.reg 3 true) = true ∧ (∀ x v, Operand.reg 3 true ≠ .imm x v) ∧
    (⟨.inp, .reg 0 false, .imm 0x00C8 false⟩ : Decoded).eqBy .byteTruncated ⟨.inp, .reg 0 false, .imm 0xFFC8 false⟩ =
      true :=
  ⟨by decide, by decide, by decide, (fun _ _ h => by cases h), by decide⟩

/-- LineOfAResponse: no operand, one in either slot, two; and a reply that adds its line. -/
theorem witness_line :
    operandText .mov true (.reg 0 true) = some "ax" ∧ operandText .mov true (.reg 3 true) = some "bx" ∧
    operandText .mov true .none = none ∧
    (loaded [] []).replies = [] ∧
    (afterNext (loaded [0x37] [.next]) ⟨.aaa, .none, .none⟩ false 1 35).replies =
      [] ++ [.next (.instr ⟨.aaa, .none, .none⟩ false 1 35)] ∧
    (Response.instr ⟨.aaa, .none, .none⟩ false 1 35).render = some "aaa" := by decide

/-- TextByKind: a tag of each sort; the first and the last address expression; a displacement of each sign. -/
theorem witness_text :
    Tag.mov ∉ [Tag.push, .pop, .inc, .dec, .neg, .mul, .imul, .div, .idiv] ∧
    Tag.idiv ∈ [Tag.push, .pop, .inc, .dec, .neg, .mul, .imul, .div, .idiv] ∧
    ["bx + si", "bx + di", "bp + si", "bp + di", "si", "di", "bp", "bx"][(0 : Reg3).toNat]? = some "bx + si" ∧
    ["bx + si", "bx + di", "bp + si", "bp + di", "si", "di", "bp", "bx"][(7 : Reg3).toNat]? = some "bx" ∧
    0 < signedWord 0x7FFF ∧ signedWord 0x8000 < 0 ∧ signedWord 0 = 0 := by decide

/-! ### Witnesses: the rows -/

/-- A state for every clause of `RowGives`: the encoding there under NEXT and TRY; cut after one byte and after all but
one, where it has so many (TRY: after none, too); a literal bit of the first byte changed. -/
def rowWitness (i : Instr) : Bool :=
  let e := encode i
  let k := i.rowId.index
  let cut := e.take (e.length - 1)
  i.wf && decide ((loaded e [.next]).NextIssued ∧ (loaded e [.next]).Holds e) &&
    decide ((loaded e [.tryRow k]).TryIssued k ∧ (loaded e [.tryRow k]).Holds e) &&
    (decide (e.length = 1) ||
      decide ((loaded (e.take 1) [.next]).NextIssued ∧ (loaded (e.take 1) [.next]).HoldsOnly (e.take 1) ∧
        0 < e.length - 1 ∧ (loaded cut [.next]).HoldsOnly cut)) &&
    decide ((loaded cut [.tryRow k]).TryIssued k ∧ (loaded cut [.tryRow k]).HoldsOnly cut ∧
      (loaded [] [.tryRow k]).TryIssued k ∧ (loaded [] [.tryRow k]).HoldsOnly (e.take 0)) &&
    (loaded [e.headD 0 ^^^ 0x80] [.tryRow k]).reader 0 == .byte (e.headD 0 ^^^ 0x80) &&
    !i.rowId.opcodeMask.firstFits (e.headD 0 ^^^ 0x80)

/-- RegisterMemoryRows. -/
theorem witness_RegisterMemoryRows :
    [Instr.movRmReg false true 7 (.reg 7), .addRmReg true false 0 (.direct 0xFFFF), .adcRmReg true true 1 (.mem0 7),
      .subRmReg false false 2 (.mem8 6 0xFF), .sbbRmReg true true 3 (.mem16 0 0x8000),
      .cmpRmReg true true 4 (.mem0 0)].all rowWitness = true := by decide

/-- ImmediateToRegisterMemoryRows. -/
theorem witness_ImmediateToRegisterMemoryRows :
    [Instr.movRmImm true (.mem16 6 0x0010) (.word 0x1234), .addRmImm true true (.reg 7) (.byte 0xFF),
      .adcRmImm false true (.direct 0) (.word 0xFFFF), .subRmImm true false (.mem0 5) (.byte 0),
      .sbbRmImm false false (.mem8 6 0) (.byte 0x80), .cmpRmImm false true (.mem0 7) (.word 0)].all rowWitness = true :=
  by decide

/-- ImmediateToRegisterRows. -/
theorem witness_ImmediateToRegisterRows :
    [Instr.movRegImm true 7 (.word 0xFFFF), .movRegImm false 0 (.byte 0), .addAccImm true (.word 0x8000),
      .adcAccImm false (.byte 0xFF), .subAccImm true (.word 0), .sbbAccImm false (.byte 0x80),
      .cmpAccImm true (.word 1)].all rowWitness = true := by decide

/-- AccumulatorAndSegmentMoveRows. -/
theorem witness_AccumulatorAndSegmentMoveRows :
    [Instr.movAccMem true 0xFFFF, .movMemAcc false 0, .movSegRm 3 (.reg 7), .movRmSeg 0 (.direct 0xFFFF)].all rowWitness =
      true := by decide

/-- StackRows. -/
theorem witness_StackRows :
    [Instr.pushRm (.mem8 6 0xFF), .pushReg 7, .pushSeg 3, .popRm (.direct 0), .popReg 0, .popSeg 1].all rowWitness =
      true := by decide

/-- ExchangeAndPointerRows. -/
theorem witness_ExchangeAndPointerRows :
    [Instr.xchgRmReg true 7 (.reg 0), .xchgAccReg 7, .lea 0 (.mem16 1 0x058C), .lds 7 (.reg 7),
      .les 3 (.mem0 5)].all rowWitness = true := by decide

/-- PortRows. -/
theorem witness_PortRows :
    [Instr.inFixed false 0xFF, .inDx true, .outFixed true 0, .outDx false].all rowWitness = true := by decide

/-- OneOperandRows. -/
theorem witness_OneOperandRows :
    [Instr.incRm true (.direct 0x0085), .incReg 7, .decRm false (.mem0 7), .decReg 0, .negRm true (.reg 0),
      .mulRm false (.mem8 7 0x80), .imulRm true (.mem16 6 0), .divRm true (.reg 3), .idivRm false (.mem0 4)].all
      rowWitness = true := by decide

/-- NoOperandTransferRows and NoOperandArithmeticRows; and, for a row with a literal in its second byte, a bit of that one
changed. -/
theorem witness_NoOperandRows :
    [Instr.xlat, .lahf, .sahf, .pushf, .popf, .aaa, .daa, .aas, .das, .aam, .aad, .cbw, .cwd].all rowWitness = true ∧
    RowId.f54.opcodeMask.bytes = 2 ∧ (loaded [0xD4, 0x0B] [.tryRow 53]).TryIssued RowId.f54.index ∧
    (loaded [0xD4, 0x0B] [.tryRow 53]).reader 0 = .byte 0xD4 ∧
    (loaded [0xD4, 0x0B] [.tryRow 53]).reader (0 + 1) = .byte 0x0B ∧
    RowId.f54.opcodeMask.fits 0xD4 0x0B = false := by decide

end Sys2Proof.Tests
end

section
/-! PROOFS of the statements of 00_scope.md: one reply per operation, and the completion of every meaning. -/

namespace Sys2Proof.Machine

/-! ### One reply per operation -/

/-- The operation issued in `s` is answered in `t`: it is off the list, and one reply was added. -/
def Answered (s t : State) : Prop := t.ops = s.ops.tail ∧ ∃ r, t.replies = s.replies ++ [r]

/-- A meaning that completes a NEXT answers it. -/
theorem exec_answers_next {i : Instr} {s t : State} (h : s.ops.head? = some .next) (ht : exec i s = .next t) :
    Answered s t := by
  obtain ⟨d, w, he⟩ := exec_shape i
  rw [he, complete_next h] at ht
  cases ht
  exact ⟨rfl, _, rfl⟩

/-- A meaning that completes a TRY answers it. -/
theorem exec_answers_try {i : Instr} {s t : State} {k : Nat} (h : s.ops.head? = some (.tryRow k))
    (ht : exec i s = .next t) : Answered s t := by
  obtain ⟨d, w, he⟩ := exec_shape i
  rw [he, complete_try h] at ht
  cases ht
  exact ⟨rfl, _, rfl⟩

theorem step_answers_next {s t : State} (h : s.ops.head? = some .next) (ht : step s = .next t) : Answered s t := by
  obtain ⟨-, rfl⟩ | ⟨-, -, rfl⟩ | ⟨-, -, ⟨i, stop, -, hi⟩ | ⟨b, -, -, rfl⟩ | ⟨a, -, rfl⟩⟩ := step_next_cases h ht
  case inr.inr.inl => exact exec_answers_next h hi
  all_goals exact ⟨rfl, _, rfl⟩

theorem step_answers_try {s t : State} {k : Nat} (h : s.ops.head? = some (.tryRow k)) (ht : step s = .next t) :
    Answered s t := by
  obtain ⟨-, rfl | ⟨-, rfl⟩⟩ | ⟨r, -, ⟨-, rfl⟩ | ⟨-, ⟨i, stop, -, hi⟩ | ⟨-, rfl⟩ | ⟨a, -, rfl⟩⟩⟩ :=
    step_try_cases h ht
  case inr.inr.inl => exact exec_answers_try h hi
  all_goals exact ⟨rfl, _, rfl⟩

/-- LOAD, RESET and STATUS answer in every state; NEXT and TRY wherever they go on. -/
theorem step_answers {s t : State} {op : HostOp} {rest : List HostOp} (ho : s.ops = op :: rest)
    (ht : step s = .next t) : Answered s t := by
  cases op with
  | next => exact step_answers_next (by rw [ho]; rfl) ht
  | tryRow k => exact step_answers_try (k := k) (by rw [ho]; rfl) ht
  | load bytes | reset | status =>
    rw [step_perform ho] at ht
    cases ht
    exact ⟨rfl, _, rfl⟩

/-- Settles O19: an idle step holds the state, and a step that goes on answers the operation at the head. -/
theorem oneReplyPerOperation : Obligations.OneReplyPerOperation := by
  refine ⟨fun s => step_idle, fun s t op rest ho ht => ?_⟩
  obtain ⟨hops, hreply⟩ := step_answers ho ht
  exact ⟨by rw [hops, ho]; rfl, hreply⟩

/-! ### Every meaning completes -/

/-- Settles O26: every meaning is the completion of a match of its own encoding's length (`exec_shape`), and completing a
match is NEXT's effect, TRY's, or, with neither issued, NEXT's registers alone. -/
theorem everyMeaningCompletes : Obligations.EveryMeaningCompletes := by
  intro i s
  obtain ⟨d, w, he⟩ := exec_shape i
  simp only [he]
  by_cases hn : s.ops.head? = some .next
  · refine ⟨_, _, complete_next hn d w _ _, fun _ => rfl, rfl, rfl, rfl, rfl, rfl, rfl, ?_, fun _ => ⟨rfl, rfl⟩, ?_,
      fun h => absurd hn h⟩
    · rintro ⟨k, hk⟩
      cases hn.symm.trans hk
    · intro op rest ho _
      simp [afterNext, ho]
  · by_cases ht : ∃ k, s.ops.head? = some (.tryRow k)
    · obtain ⟨k, hk⟩ := ht
      refine ⟨_, _, complete_try hk d w _ _, fun _ => rfl, rfl, rfl, rfl, rfl, rfl, rfl, fun _ => ⟨rfl, rfl⟩,
        fun h => absurd hk (h k), ?_, fun _ h => absurd hk (h k)⟩
      intro op rest ho _
      simp [afterTry, ho]
    · have ht' : ∀ k, s.ops.head? ≠ some (.tryRow k) := fun k hk => ht ⟨k, hk⟩
      refine ⟨_, _, complete_idle hn ht' d w _ _, fun _ => rfl, rfl, rfl, rfl, rfl, rfl, rfl, fun h => absurd h ht,
        fun _ => ⟨rfl, rfl⟩, ?_, fun _ _ => rfl⟩
      rintro op rest ho (rfl | ⟨k, rfl⟩)
      · exact absurd (by rw [ho]; rfl) hn
      · exact absurd (by rw [ho]; rfl) (ht' k)

end Sys2Proof.Machine
end

section
/-! PROOFS of the statements of 00_scope.md: the text of every operand, by kind. -/

namespace Sys2Proof.Machine

/-! ### Integers in decimal -/

theorem decimal_eq_toString (n : Nat) : decimal n = toString n := rfl

theorem signedDecimal_eq_toString (v : Int) : signedDecimal v = toString v := by
  cases v with
  | ofNat n => exact if_neg (Int.not_lt.mpr (Int.natCast_nonneg n))
  | negSucc n => exact if_pos (Int.negSucc_lt_zero n)

theorem decimal_natAbs {v : Int} (h : 0 ≤ v) : decimal v.natAbs = toString v := by
  rw [← signedDecimal_eq_toString, signedDecimal, if_neg (not_lt.mpr h)]

/-- `s16` is the signed reading of a word. -/
theorem toInt_eq_signedWord (v : Word) : v.toInt = signedWord v := by
  rw [BitVec.toInt_eq_toNat_cond, signedWord]
  split <;> split <;> omega

/-- `s8` is the signed reading of the low byte. -/
theorem toInt_lowByte_eq_signedLowByte (v : Word) : (lowByte v).toInt = signedLowByte v := by
  rw [BitVec.toInt_eq_toNat_cond, signedLowByte, lowByte, BitVec.toNat_setWidth]
  split <;> split <;> omega

/-! ### Operands -/

theorem regName_eq_getElem? (i : Reg3) (wide : Bool) :
    some (regName i wide) =
      (if wide then ["ax", "cx", "dx", "bx", "sp", "bp", "si", "di"]
       else ["al", "cl", "dl", "bl", "ah", "ch", "dh", "bh"])[i.toNat]? := by
  revert i wide; decide

theorem segName_eq_getElem? (i : Seg2) : some (segName i) = ["es", "cs", "ss", "ds"][i.toNat]? := by
  revert i; decide

theorem eaText_eq_getElem? (rm : Reg3) :
    some (eaText rm) = ["bx + si", "bx + di", "bp + si", "bp + di", "si", "di", "bp", "bx"][rm.toNat]? := by
  revert rm; decide

theorem immText_narrow (v : Word) : immText v false = "byte " ++ toString (signedLowByte v) := by
  simp [immText, signedDecimal_eq_toString, toInt_lowByte_eq_signedLowByte]

theorem immText_wide (v : Word) : immText v true = "word " ++ toString (signedWord v) := by
  simp [immText, signedDecimal_eq_toString, toInt_eq_signedWord]

theorem forcesWidth_iff {t : Tag} :
    forcesWidth t = true ↔ t ∈ [Tag.push, .pop, .inc, .dec, .neg, .mul, .imul, .div, .idiv] :=
  List.contains_iff_mem

theorem dispText_pos {disp : Word} (h : 0 < signedWord disp) : dispText disp = " + " ++ toString (signedWord disp) := by
  simp only [dispText, toInt_eq_signedWord, if_pos h, decimal_natAbs h.le]

theorem dispText_neg {disp : Word} (h : signedWord disp < 0) :
    dispText disp = " - " ++ toString (-signedWord disp) := by
  simp only [dispText, toInt_eq_signedWord, if_neg (not_lt.mpr h.le), if_pos h, ← Int.natAbs_neg (signedWord disp),
    decimal_natAbs (Int.neg_nonneg.mpr h.le)]

theorem dispText_zero {disp : Word} (h : signedWord disp = 0) : dispText disp = "" := by
  simp [dispText, toInt_eq_signedWord, h]

theorem memText_base {rm : Reg3} {disp : Word} {e : String}
    (he : ["bx + si", "bx + di", "bp + si", "bp + di", "si", "di", "bp", "bx"][rm.toNat]? = some e) :
    memText (.base rm) disp = "[" ++ e ++ dispText disp ++ "]" := by
  rw [← eaText_eq_getElem?, Option.some.injEq] at he
  rw [memText, he]

/-- Settles O49: each kind's text by its own lemma above, the mnemonics and the spec's examples by evaluation. -/
theorem textByKind : Obligations.TextByKind := by
  refine ⟨by decide, fun t w => ⟨rfl, fun i => regName_eq_getElem? i false, fun i => regName_eq_getElem? i true,
    segName_eq_getElem?, fun v => congrArg some (immText_narrow v), fun v => congrArg some (immText_wide v),
    fun ea disp => ⟨fun ht => ?_, fun ht => ?_⟩⟩, fun disp => rfl,
    fun rm disp e he => ⟨fun h => ?_, fun h => ?_, fun h => ?_⟩, by decide⟩
  · simp [operandText, mt forcesWidth_iff.mp ht]
  · simp [operandText, forcesWidth_iff.mpr ht]
  · simp only [memText_base he, dispText_pos h, String.append_assoc]
  · simp only [memText_base he, dispText_neg h, String.append_assoc]
  · simp only [memText_base he, dispText_zero h, String.append_empty]

end Sys2Proof.Machine
end

section
/-! What EXTRACT of any row leaves: where it ends, which kinds have a value, and what a kind's descriptors say of its
value (41_extraction_engine.md rules R89 to R96). -/

namespace Sys2Proof

/-! ### One descriptor -/

/-- The values a descriptor can store: its own where it is implied (rule R93), any of its `n` bits otherwise (rule
R92). -/
def Descriptor.Allows (d : Descriptor) (v : Byte) : Prop :=
  if d.n = 0 then v = BitVec.ofNat 8 d.value else v.toNat < 2 ^ d.n

theorem Attempt.andThen_eq_matched {α β : Type} {x : Attempt α} {f : α → Attempt β} {b : β} :
    x.andThen f = .matched b ↔ ∃ a, x = .matched a ∧ f a = .matched b := by
  cases x <;> simp

theorem Engine.topBits_lt (e : Engine) {n : Nat} : (e.topBits n).toNat < 2 ^ n := by
  have hpos := Nat.two_pow_pos n
  have hand : (e.topBits n).toNat ≤ (2 ^ n - 1) % 2 ^ 8 := by
    rw [Engine.topBits, BitVec.toNat_and, BitVec.toNat_ofNat]
    exact Nat.and_le_right
  have := Nat.mod_le (2 ^ n - 1) (2 ^ 8)
  omega

/-- A fetch leaves the map, and a bit to take for each that is still to come of the byte it stands in. -/
theorem Engine.fetch_matched {rd : Reader} {e f : Engine} (h : e.fetch rd = .matched f) :
    f.map = e.map ∧ (e.bits = 0 ∧ f.bits = 8 ∧ f.pos = e.pos + 1 ∨ e.bits ≠ 0 ∧ f.bits = e.bits ∧ f.pos = e.pos) := by
  unfold Engine.fetch at h
  split at h
  · obtain ⟨b, -, hb⟩ := Attempt.andThen_eq_matched.mp h
    cases hb
    exact ⟨rfl, .inl ⟨‹_›, rfl, rfl⟩⟩
  · cases h
    exact ⟨rfl, .inr ⟨‹_›, rfl, rfl⟩⟩

/-- Accepting a value writes the map at its kind alone: 0 for a literal, the value for a field. -/
theorem Engine.accept_matched {e f : Engine} {d : Descriptor} {v : Byte} (h : e.accept d v = .matched f) :
    f.pos = e.pos ∧ f.bits = e.bits ∧ f.map = e.map.put d.kind (if d.kind = .lit then 0 else v) := by
  unfold Engine.accept at h
  split at h
  · split at h
    · cases h
      simp [*]
    · cases h
  · cases h
    simp [*]

/-- A descriptor that is accepted writes the map at its own kind, with a value it allows. -/
theorem Engine.descriptor_map {rd : Reader} {e f : Engine} {d : Descriptor} (h : e.descriptor rd d = .matched f) :
    ∃ v, f.map = e.map.put d.kind v ∧ (d.kind ≠ .lit → d.Allows v) := by
  unfold Engine.descriptor at h
  split at h
  · obtain ⟨-, -, hm⟩ := Engine.accept_matched h
    exact ⟨_, hm, fun hk => by simp [Descriptor.Allows, *]⟩
  · obtain ⟨g, hg, ha⟩ := Attempt.andThen_eq_matched.mp h
    obtain ⟨-, -, hm⟩ := Engine.accept_matched ha
    refine ⟨_, hm.trans (congrArg (FieldMap.put · _ _) (Engine.fetch_matched hg).1), fun hk => ?_⟩
    simp [Descriptor.Allows, *, Engine.topBits_lt]

/-- A descriptor takes its `n` bits, from the byte it stands in where they are there, from the next where no bit is
left. -/
theorem Engine.descriptor_bits {rd : Reader} {e f : Engine} {d : Descriptor} {used : Nat}
    (h : e.descriptor rd d = .matched f) (hu : used < 8) (he : e.bits < 8) (hb : (used + e.bits) % 8 = 0)
    (hd : used + d.n ≤ 8) :
    f.bits < 8 ∧ ((used + d.n) % 8 + f.bits) % 8 = 0 ∧ 8 * f.pos + e.bits = 8 * e.pos + f.bits + d.n := by
  unfold Engine.descriptor at h
  split at h
  · obtain ⟨hp, hbits, -⟩ := Engine.accept_matched h
    omega
  · obtain ⟨g, hg, ha⟩ := Attempt.andThen_eq_matched.mp h
    obtain ⟨hp, hbits, -⟩ := Engine.accept_matched ha
    simp only [Engine.consume] at hp hbits
    obtain ⟨-, ⟨h0, h8, hq⟩ | ⟨h0, h8, hq⟩⟩ := Engine.fetch_matched hg <;> omega

/-! ### All of a row's -/

/-- Descriptors that fill whole bytes end with no bit left, past the bytes they fill. -/
theorem Engine.descriptors_bits {rd : Reader} {ds : List Descriptor} {e f : Engine} {used : Nat}
    (h : Engine.descriptors rd ds e = .matched f) (hf : fieldsFillBytes used ds = true) (hu : used < 8)
    (he : e.bits < 8) (hb : (used + e.bits) % 8 = 0) :
    f.bits = 0 ∧ 8 * f.pos + e.bits = 8 * e.pos + (ds.map Descriptor.n).sum := by
  induction ds generalizing e used with
  | nil =>
    cases h
    rw [fieldsFillBytes, beq_iff_eq] at hf
    simp only [List.map_nil, List.sum_nil]
    omega
  | cons d ds ih =>
    obtain ⟨g, hg, hr⟩ := Attempt.andThen_eq_matched.mp h
    simp only [fieldsFillBytes, Bool.and_eq_true, decide_eq_true_eq] at hf
    obtain ⟨hgb, hgu, hgp⟩ := Engine.descriptor_bits hg hu he hb hf.1
    obtain ⟨h0, hp⟩ := ih hr hf.2 (Nat.mod_lt _ (by omega)) hgb hgu
    simp only [List.map_cons, List.sum_cons]
    omega

/-- A kind has a value after the descriptors iff it had one before, or one of them is of that kind. -/
theorem Engine.descriptors_present {rd : Reader} {ds : List Descriptor} {e f : Engine} (k : FieldKind)
    (h : Engine.descriptors rd ds e = .matched f) :
    f.map.present k = (e.map.present k || ds.any fun d => d.kind == k) := by
  induction ds generalizing e with
  | nil => cases h; simp
  | cons d ds ih =>
    obtain ⟨g, hg, hr⟩ := Attempt.andThen_eq_matched.mp h
    obtain ⟨v, hm, -⟩ := Engine.descriptor_map hg
    rw [ih hr, FieldMap.present, FieldMap.present, hm, FieldMap.put]
    by_cases hk : k = d.kind
    · simp [hk]
    · have hk' : (d.kind == k) = false := beq_false_of_ne (Ne.symm hk)
      simp [hk, hk']

/-- The value of a kind after the descriptors has a property that it had before, and that every value has which one of
them allows the kind. -/
theorem Engine.descriptors_value {rd : Reader} {ds : List Descriptor} {e f : Engine} {k : FieldKind} {P : Byte → Prop}
    (hk : k ≠ .lit) (h : Engine.descriptors rd ds e = .matched f) (he : ∀ v, e.map k = some v → P v)
    (hd : ∀ d ∈ ds, d.kind = k → ∀ v, d.Allows v → P v) : ∀ v, f.map k = some v → P v := by
  induction ds generalizing e with
  | nil => cases h; exact he
  | cons d ds ih =>
    obtain ⟨g, hg, hr⟩ := Attempt.andThen_eq_matched.mp h
    obtain ⟨v, hm, hv⟩ := Engine.descriptor_map hg
    refine ih hr ?_ fun c hc => hd c (List.mem_cons_of_mem d hc)
    intro u hu
    rw [hm, FieldMap.put] at hu
    split at hu
    · rename_i hkd
      cases hu
      exact hd d List.mem_cons_self hkd.symm v (hv (hkd ▸ hk))
    · exact he u hu

/-! ### EXTRACT -/

section
variable {rd : Reader} {cur pos : Nat} {row : Row} {m : FieldMap} (h : extract rd cur row = .matched (m, pos))
include h

/-- EXTRACT of a row that passes WF4 ends past the bytes its descriptors fill (rule R96). -/
theorem extract_pos (hw : row.wf4 = true) : pos = cur + (row.fields.map Descriptor.n).sum / 8 := by
  obtain ⟨f, hf, hm⟩ := Attempt.andThen_eq_matched.mp h
  cases hm
  have := (Engine.descriptors_bits hf hw (by decide) (by simp [Engine.start]) rfl).2
  simp only [Engine.start] at this
  omega

/-- EXTRACT gives a value to exactly the kinds of the row's descriptors. -/
theorem extract_present (k : FieldKind) : m.present k = row.fields.any fun d => d.kind == k := by
  obtain ⟨f, hf, hm⟩ := Attempt.andThen_eq_matched.mp h
  cases hm
  rw [Engine.descriptors_present k hf]
  rfl

/-- A kind's value has each property that all values have which the row's descriptors of the kind allow, and that 0 has
where there is none. -/
theorem extract_val {k : FieldKind} {P : Byte → Prop} (hk : k ≠ .lit)
    (hd : ∀ d ∈ row.fields, d.kind = k → ∀ v, d.Allows v → P v)
    (h0 : (∀ d ∈ row.fields, d.kind ≠ k) → P 0) : P (m.val k) := by
  have hp := extract_present h k
  obtain ⟨f, hf, hm⟩ := Attempt.andThen_eq_matched.mp h
  cases hm
  have hv := Engine.descriptors_value hk hf (fun v hv => by cases hv) hd
  cases hmk : f.map k with
  | some v =>
    rw [FieldMap.val, hmk]
    exact hv v hmk
  | none =>
    rw [FieldMap.val, hmk]
    refine h0 fun d hmem hdk => ?_
    rw [FieldMap.present, hmk, eq_comm, Option.isSome_none, List.any_eq_false] at hp
    exact hp d hmem (beq_iff_eq.mpr hdk)

/-- A kind whose descriptors in the row are all implied with the value `c`, or that the row does not have, where `c` is
0. -/
theorem extract_val_implied {k : FieldKind} (c : Nat) (hk : k ≠ .lit)
    (hd : ∀ d ∈ row.fields, d.kind = k → d.n = 0 ∧ d.value = c)
    (h0 : (∀ d ∈ row.fields, d.kind ≠ k) → c = 0) : m.val k = BitVec.ofNat 8 c := by
  refine extract_val (P := (· = BitVec.ofNat 8 c)) h hk (fun d hmem hdk v hv => ?_) fun hn => ?_
  · obtain ⟨hn, hvc⟩ := hd d hmem hdk
    rwa [Descriptor.Allows, if_pos hn, hvc] at hv
  · rw [h0 hn]
    rfl

end

end Sys2Proof
end

section
/-! What steps 1 to 10 of TRY give, in the words of the instruction a row assembles: the r/m form, the immediate, the
length, and the slots (42_decoder.md rules R99 to R113). -/

namespace Sys2Proof

open Sys2Proof.Machine

/-! ### The bytes after the descriptor bytes -/

/-- The length of the displacement (42_decoder.md rule R103). -/
def FieldMap.dispLen (m : FieldMap) : Nat := if m.hasDisp then if m.dispWide then 2 else 1 else 0

/-- The length of the data (42_decoder.md rules R101 and R104). -/
def FieldMap.dataLen (m : FieldMap) : Nat := if m.hasData then if m.dataWide then 2 else 1 else 0

/-- What `DISP` can be: 0 where no displacement is read, a byte sign-extended where one byte is (42_decoder.md rules R105
and R106). -/
def FieldMap.DispFits (m : FieldMap) (disp : Word) : Prop :=
  (m.hasDisp = false → disp = 0) ∧ (m.hasDisp = true → m.dispWide = false → ∃ b, disp = sext16 b)

/-- What `DATA` and `DATA_WIDE` can be: a byte extended by `S` where one byte is read (42_decoder.md rule R107). -/
def FieldMap.DataFits (m : FieldMap) (data : Word) (wide : Bool) : Prop :=
  m.hasData = true → wide = m.dataWide ∧
    (m.dataWide = false → ∃ b, data = if m.signExtends then sext16 b else zext16 b)

theorem readDisp_matched {rd : Reader} {m : FieldMap} {p stop : Nat} {disp : Word}
    (h : (if m.hasDisp then readDisp rd m p else .matched (0, p)) = .matched (disp, stop)) :
    m.DispFits disp ∧ stop = p + m.dispLen := by
  split at h
  · rename_i hd
    unfold readDisp at h
    split at h
    · rename_i hw
      obtain ⟨v, -, hv⟩ := Attempt.andThen_eq_matched.mp h
      cases hv
      simp [FieldMap.DispFits, FieldMap.dispLen, hd, hw]
    · rename_i hw
      obtain ⟨b, -, hb⟩ := Attempt.andThen_eq_matched.mp h
      cases hb
      exact ⟨⟨fun hn => absurd hd (by simp [hn]), fun _ _ => ⟨b, rfl⟩⟩, by simp [FieldMap.dispLen, hd, hw]⟩
  · rename_i hd
    cases h
    simp [FieldMap.DispFits, FieldMap.dispLen, hd]

theorem readData_matched {rd : Reader} {m : FieldMap} {p stop : Nat} {data : Word} {wide : Bool}
    (h : (if m.hasData then readData rd m p else .matched (0, false, p)) = .matched (data, wide, stop)) :
    m.DataFits data wide ∧ stop = p + m.dataLen := by
  split at h
  · rename_i hd
    unfold readData at h
    split at h
    · rename_i hw
      obtain ⟨v, -, hv⟩ := Attempt.andThen_eq_matched.mp h
      cases hv
      simp [FieldMap.DataFits, FieldMap.dataLen, hd, hw]
    · rename_i hw
      obtain ⟨b, -, hb⟩ := Attempt.andThen_eq_matched.mp h
      cases hb
      exact ⟨fun _ => ⟨by simp [hw], fun _ => ⟨b, rfl⟩⟩, by simp [FieldMap.dataLen, hd, hw]⟩
  · rename_i hd
    cases h
    simp [FieldMap.DataFits, FieldMap.dataLen, hd]

/-- Step 6 reads the displacement, then the data (42_decoder.md rule R105). -/
theorem readTrailing_matched {rd : Reader} {m : FieldMap} {pos : Nat} {p : Parsed}
    (h : readTrailing rd m pos = .matched p) :
    p.map = m ∧ m.DispFits p.disp ∧ m.DataFits p.data p.dataWide ∧ p.stop = pos + m.dispLen + m.dataLen := by
  obtain ⟨⟨disp, q⟩, hdisp, h⟩ := Attempt.andThen_eq_matched.mp h
  obtain ⟨⟨data, wide, stop⟩, hdata, h⟩ := Attempt.andThen_eq_matched.mp h
  cases h
  obtain ⟨hfits, rfl⟩ := readDisp_matched hdisp
  obtain ⟨hdfits, rfl⟩ := readData_matched hdata
  exact ⟨rfl, hfits, hdfits, rfl⟩

/-! ### The instruction's form, immediate and slots -/

theorem mod_cases {v : Byte} (h : v.toNat < 4) : v = 0 ∨ v = 1 ∨ v = 2 ∨ v = 3 := by
  have : v.toNat = 0 ∨ v.toNat = 1 ∨ v.toNat = 2 ∨ v.toNat = 3 := by omega
  simpa [← BitVec.toNat_inj] using this

/-- The r/m form read off `DISP` is as long as the displacement read. -/
theorem rmForm_dispLen {p : Parsed} (hm : (p.map.val .mod).toNat < 4) : p.rmForm.dispLen = p.map.dispLen := by
  unfold Parsed.rmForm FieldMap.dispLen FieldMap.hasDisp FieldMap.dispWide FieldMap.direct
  obtain hv | hv | hv | hv := mod_cases hm
  · by_cases hr : p.map.val .rm = 6#8 <;> simp [hv, hr, RmForm.dispLen]
  all_goals simp [hv, RmForm.dispLen]

/-- The r/m form read off `DISP` is the mod-like operand of step 7 (42_decoder.md rule R110). -/
theorem rmOperand_rmForm {p : Parsed} (wide : Bool) (hm : (p.map.val .mod).toNat < 4) (hd : p.map.DispFits p.disp) :
    rmOperand wide p.rmForm =
      if p.map.val .mod = 3 then .reg ((p.map.val .rm).setWidth 3) wide
      else if p.map.val .mod = 0 ∧ p.map.val .rm = 6 then .mem .direct p.disp
      else .mem (.base ((p.map.val .rm).setWidth 3)) p.disp := by
  unfold FieldMap.DispFits FieldMap.hasDisp FieldMap.dispWide FieldMap.direct at hd
  unfold Parsed.rmForm FieldMap.direct
  obtain hv | hv | hv | hv := mod_cases hm
  · by_cases hr : p.map.val .rm = 6#8
    · simp [hv, hr, rmOperand]
    · simp [hv, hr] at hd
      simp [hv, hr, rmOperand, hd]
  · simp [hv] at hd
    obtain ⟨b, hb⟩ := hd
    simp [hv, rmOperand, hb]
  all_goals simp [hv, rmOperand]

/-- The immediate read off `DATA` is the immediate operand of step 9 (42_decoder.md rule R112). -/
theorem immOperand_immData {p : Parsed} (hh : p.map.hasData = true) (hd : p.map.DataFits p.data p.dataWide) :
    immOperand p.map.signExtends p.immData = .imm p.data p.dataWide := by
  obtain ⟨hw, hb⟩ := hd hh
  cases hv : p.map.dataWide with
  | true => simp [Parsed.immData, hw, hv, immOperand]
  | false =>
    obtain ⟨b, hb⟩ := hb hv
    cases hs : p.map.signExtends <;> simp [Parsed.immData, hw, hv, immOperand, hb, hs]

theorem immData_dataLen {p : Parsed} (hh : p.map.hasData = true) (hd : p.map.DataFits p.data p.dataWide) :
    p.immData.dataLen = p.map.dataLen := by
  obtain ⟨hw, -⟩ := hd hh
  cases hv : p.map.dataWide <;> simp [Parsed.immData, FieldMap.dataLen, hh, hw, hv, ImmData.dataLen]

theorem regLikeOf_ne_operandNone (m : FieldMap) : regLikeOf m ≠ some .none := by
  unfold regLikeOf
  split
  · simp
  · split <;> simp

theorem modLikeOf_ne_operandNone (m : FieldMap) (disp : Word) : modLikeOf m disp ≠ some .none := by
  unfold modLikeOf
  split
  · split
    · simp
    · split <;> simp
  · simp

theorem putRegLike_eq (m : FieldMap) (t : Slots) :
    t.putRegLike m = (regLikeOf m).elim t (fun o => t.fill m.regFirst o) := by
  unfold Slots.putRegLike regLikeOf FieldMap.present
  split
  · rfl
  · split <;> rfl

theorem putModLike_eq (m : FieldMap) (disp : Word) (t : Slots) :
    t.putModLike m disp = (modLikeOf m disp).elim t (fun o => t.fill (!m.regFirst) o) := by
  unfold Slots.putModLike modLikeOf FieldMap.present FieldMap.direct
  split
  · split
    · rfl
    · simp only [Bool.and_eq_true, beq_iff_eq]
      split <;> rfl
  · rfl

/-- Steps 7 to 9 with a reg-like or a mod-like operand: the two by `D`, data in the place of the one that is missing
(42_decoder.md rules R108 and R112). -/
theorem finishCore_operands {tag : Tag} {p : Parsed}
    (h : regLikeOf p.map ≠ none ∨ modLikeOf p.map p.disp ≠ none) :
    (finishCore tag p).instr =
      slotsByD tag p.map.regFirst ((regLikeOf p.map).getD (dataOperandOf p))
        ((modLikeOf p.map p.disp).getD (dataOperandOf p)) := by
  simp only [finishCore, putRegLike_eq, putModLike_eq]
  have hrn := regLikeOf_ne_operandNone p.map
  have hmn := modLikeOf_ne_operandNone p.map p.disp
  cases hr : regLikeOf p.map with
  | some o =>
    have ho : o ≠ .none := fun he => hrn (hr.trans (congrArg some he))
    cases hm : modLikeOf p.map p.disp with
    | some q =>
      have hq : q ≠ .none := fun he => hmn (hm.trans (congrArg some he))
      cases hd : p.map.regFirst <;> simp [Slots.fill, Slots.empty, Slots.putData, slotsByD, ho, hq]
    | none =>
      cases hd : p.map.regFirst <;> cases hh : p.map.hasData <;>
        simp [Slots.fill, Slots.empty, Slots.putData, slotsByD, dataOperandOf, ho, hh]
  | none =>
    cases hm : modLikeOf p.map p.disp with
    | some q =>
      have hq : q ≠ .none := fun he => hmn (hm.trans (congrArg some he))
      cases hd : p.map.regFirst <;> cases hh : p.map.hasData <;>
        simp [Slots.fill, Slots.empty, Slots.putData, slotsByD, dataOperandOf, hq, hh]
    | none => simp [hr, hm] at h

/-- Steps 7 to 9 with neither: data in slot 0 (42_decoder.md rule R112). -/
theorem finishCore_noOperands {tag : Tag} {p : Parsed} (hr : regLikeOf p.map = none)
    (hm : modLikeOf p.map p.disp = none) : (finishCore tag p).instr = ⟨tag, dataOperandOf p, .none⟩ := by
  simp only [finishCore, putRegLike_eq, putModLike_eq, hr, hm]
  cases hh : p.map.hasData <;> simp [Slots.fill, Slots.empty, Slots.putData, dataOperandOf, hh]

end Sys2Proof
end

section
/-! The rows of `REF_TABLE` under TRY: what a row's descriptors fix of the instruction, and what they leave to the bytes
read. Both TRY_CORE and the row's own meaning are this view of the row, and so agree. -/

namespace Sys2Proof

open Sys2Proof.Machine

/-! ### What a row's descriptors fix -/

/-- The row has a descriptor of the kind. -/
def Row.has (r : Row) (k : FieldKind) : Bool := r.fields.any fun d => d.kind == k

/-- The row gives the kind the value `c` whatever the bytes: every descriptor of the kind is implied with that value, or
there is none and `c` is 0 (42_decoder.md rule R101). -/
def Row.fixes (r : Row) (k : FieldKind) (c : Nat) : Bool :=
  (r.fields.all fun d => d.kind != k || d.n == 0 && d.value == c) && (r.has k || c == 0)

/-- The number of the row's descriptor bytes. -/
def Row.byteCount (r : Row) : Nat := (r.fields.map Descriptor.n).sum / 8

/-- What the attempt of a row leaves in the decoder's registers when it succeeds at `CUR`. -/
structure RowId.Parses (r : RowId) (cur : Nat) (p : Parsed) : Prop where
  present : ∀ k, p.map.present k = r.row.has k
  fixed : ∀ k c, k ≠ .lit → r.row.fixes k c = true → p.map.val k = BitVec.ofNat 8 c
  mod_lt : (p.map.val .mod).toNat < 4
  disp : p.map.DispFits p.disp
  data : p.map.DataFits p.data p.dataWide
  stop : p.stop = cur + r.row.byteCount + p.map.dispLen + p.map.dataLen

theorem RowId.row_wf4 (r : RowId) : r.row.wf4 = true := by cases r <;> decide

/-- `MOD` is a field of two bits or implied below 4 in every row. -/
theorem RowId.mod_narrow (r : RowId) : ∀ d ∈ r.row.fields, d.kind = .mod → d.n ≤ 2 ∧ d.value < 4 := by
  cases r <;> decide

theorem RowId.parses_of_parse {rd : Reader} {cur : Nat} {r : RowId} {p : Parsed}
    (h : parse rd cur r.row = .matched p) : r.Parses cur p := by
  obtain ⟨⟨m, pos⟩, hx, ht⟩ := Attempt.andThen_eq_matched.mp h
  obtain ⟨rfl, hdisp, hdata, hstop⟩ := readTrailing_matched ht
  refine ⟨extract_present hx, fun k c hk hf => ?_, ?_, hdisp, hdata, ?_⟩
  · simp only [Row.fixes, Row.has, Bool.and_eq_true, Bool.or_eq_true, List.all_eq_true, List.any_eq_true, bne_iff_ne,
      beq_iff_eq] at hf
    obtain ⟨hall, h0⟩ := hf
    refine extract_val_implied hx c hk (fun d hd hdk => (hall d hd).resolve_left (absurd hdk)) fun hn => ?_
    exact h0.resolve_left fun ⟨d, hd, hdk⟩ => hn d hd hdk
  · refine extract_val (P := fun v => v.toNat < 4) hx (by decide) (fun d hd hdk v hv => ?_) fun _ => by decide
    obtain ⟨hn, hval⟩ := r.mod_narrow d hd hdk
    unfold Descriptor.Allows at hv
    split at hv
    · rw [hv, BitVec.toNat_ofNat]
      omega
    · have := Nat.pow_le_pow_right (n := 2) (by omega) hn
      omega
  · rw [hstop, extract_pos hx r.row_wf4, Row.byteCount]

/-- In every row that has `HAS_DATA` or `RM_ALWAYS_W` the flag is implied with value 1. -/
theorem RowId.flags_fixed (r : RowId) {k : FieldKind} (hk : k = .hasData ∨ k = .rmAlwaysW) (hh : r.row.has k = true) :
    r.row.fixes k 1 = true := by
  obtain rfl | rfl := hk <;> revert hh <;> cases r <;> decide

/-- In a row with no `RM`, `MOD` and `RM` are 0. -/
theorem RowId.noRm_fixed (r : RowId) (hr : r.row.has .rm = false) :
    r.row.fixes .mod 0 = true ∧ r.row.fixes .rm 0 = true := by
  revert hr; cases r <;> decide

/-! ### The view of a row -/

section
variable (r : RowId) (p : Parsed)

/-- Whether a kind of one bit is 1. -/
def RowId.bit (k : FieldKind) : Bool :=
  if r.row.fixes k 1 then true else if r.row.fixes k 0 then false else p.map.val k == 1

/-- The register of the row's `REG`. -/
def RowId.regIndex : Reg3 := if r.row.fixes .reg 0 then 0 else p.regField

/-- The r/m form of the row's `MOD` and `RM`. -/
def RowId.form : RmForm :=
  if r.row.fixes .mod 3 && r.row.fixes .rm (r.row.impliedValue .rm) then .reg (BitVec.ofNat 3 (r.row.impliedValue .rm))
  else if r.row.fixes .mod 0 && r.row.fixes .rm 6 then .direct p.disp
  else p.rmForm

/-- The immediate: a byte in a row with no `DATA_W_FOLLOWS_W`. -/
def RowId.imm : ImmData := if r.row.has .dataWFollowsW then p.immData else .byte (lowByte p.data)

/-- The reg-like operand (42_decoder.md rule R109). -/
def RowId.regLike : Option Operand :=
  if r.row.has .sr then some (.seg p.segField)
  else if r.row.has .reg then some (.reg (r.regIndex p) (r.bit p .w))
  else none

/-- The mod-like operand (42_decoder.md rule R110). -/
def RowId.modLike : Option Operand :=
  if r.row.has .rm then some (rmOperand (if r.row.has .rmAlwaysW then true else r.bit p .w) (r.form p)) else none

/-- The immediate operand, or `None` (42_decoder.md rule R112). -/
def RowId.dataOperand : Operand := if r.row.has .hasData then immOperand (r.bit p .s) (r.imm p) else .none

/-- The instruction (42_decoder.md rules R108 to R113). -/
def RowId.decoded : Decoded :=
  match r.regLike p, r.modLike p with
  | none, none => ⟨r.row.tag, r.dataOperand p, .none⟩
  | reg, rm => slotsByD r.row.tag (r.bit p .d) (reg.getD (r.dataOperand p)) (rm.getD (r.dataOperand p))

/-- The length of the instruction. -/
def RowId.length : Nat :=
  r.row.byteCount + (if r.row.has .rm then (r.form p).dispLen else 0) +
    (if r.row.has .hasData then (r.imm p).dataLen else 0)

/-- The meaning of each row is the view of it. -/
theorem exec_assemble (s : State) :
    exec (assemble r p) s = complete (r.decoded p) (r.bit p .w) (r.length p) r.index s := by
  cases r <;> rfl

end

/-! ### The ten steps give the view -/

section
variable {r : RowId} {cur : Nat} {p : Parsed} (h : r.Parses cur p)
include h

theorem RowId.Parses.bit_eq {k : FieldKind} (hk : k ≠ .lit) : (p.map.val k == 1) = r.bit p k := by
  unfold RowId.bit
  split
  · rename_i hf
    rw [h.fixed k 1 hk hf]
    rfl
  · split
    · rename_i hf
      rw [h.fixed k 0 hk hf]
      rfl
    · rfl

theorem RowId.Parses.regIndex_eq : p.regField = r.regIndex p := by
  unfold RowId.regIndex
  split
  · rename_i hf
    rw [Parsed.regField, h.fixed .reg 0 (by decide) hf]
    rfl
  · rfl

theorem RowId.Parses.form_eq : p.rmForm = r.form p := by
  unfold RowId.form
  split
  · rename_i hf
    rw [Bool.and_eq_true] at hf
    rw [Parsed.rmForm, h.fixed .mod 3 (by decide) hf.1, h.fixed .rm _ (by decide) hf.2,
      BitVec.setWidth_ofNat_of_le (by decide)]
    rfl
  · split
    · rename_i hf
      rw [Bool.and_eq_true] at hf
      simp [Parsed.rmForm, FieldMap.direct, h.fixed .mod 0 (by decide) hf.1, h.fixed .rm 6 (by decide) hf.2]
    · rfl

theorem RowId.Parses.flag_eq {k : FieldKind} (hk : k = .hasData ∨ k = .rmAlwaysW) : p.map.flag k = r.row.has k := by
  rw [FieldMap.flag, h.present]
  cases hh : r.row.has k with
  | true =>
    rw [h.fixed k 1 (by rintro rfl; simp at hk) (r.flags_fixed hk hh)]
    rfl
  | false => rfl

theorem RowId.Parses.hasData_eq : p.map.hasData = r.row.has .hasData := h.flag_eq (.inl rfl)

theorem RowId.Parses.rmAlwaysWide_eq : p.map.rmAlwaysWide = r.row.has .rmAlwaysW := h.flag_eq (.inr rfl)

/-- Data of a row with no `DATA_W_FOLLOWS_W` are one byte. -/
theorem RowId.Parses.imm_eq (hd : p.map.hasData = true) : p.immData = r.imm p := by
  unfold RowId.imm
  split
  · rfl
  · rename_i hf
    have hn : p.map.dataWide = false := by
      simp [FieldMap.dataWide, FieldMap.flag, h.present, Bool.eq_false_iff.mpr hf]
    rw [Parsed.immData, (h.data hd).1, hn]
    rfl

theorem RowId.Parses.regLike_eq : regLikeOf p.map = r.regLike p := by
  have hw := h.bit_eq (k := .w) (by decide)
  have hs : (p.map .sr).isSome = r.row.has .sr := h.present .sr
  have hr : (p.map .reg).isSome = r.row.has .reg := h.present .reg
  rw [regLikeOf, hs, hr, hw]
  simp only [RowId.regLike, ← h.regIndex_eq]
  rfl

theorem RowId.Parses.modLike_eq : modLikeOf p.map p.disp = r.modLike p := by
  have hw := h.bit_eq (k := .w) (by decide)
  have hr : (p.map .rm).isSome = r.row.has .rm := h.present .rm
  have hwide : (if r.row.has .rmAlwaysW then true else r.bit p .w) = (r.bit p .w || r.row.has .rmAlwaysW) := by
    cases r.row.has .rmAlwaysW <;> simp
  rw [modLikeOf, hr, hw, h.rmAlwaysWide_eq]
  simp only [RowId.modLike, ← h.form_eq, rmOperand_rmForm _ h.mod_lt h.disp, hwide]
  split
  · split
    · rfl
    · split <;> rfl
  · rfl

theorem RowId.Parses.dataOperand_eq : dataOperandOf p = r.dataOperand p := by
  have hs : p.map.signExtends = r.bit p .s := h.bit_eq (by decide)
  rw [dataOperandOf, RowId.dataOperand, ← h.hasData_eq]
  split
  · rename_i hd
    rw [← h.imm_eq hd, ← hs, immOperand_immData hd h.data]
  · rfl

theorem RowId.Parses.finishCore_instr : (finishCore r.row.tag p).instr = r.decoded p := by
  have hd : p.map.regFirst = r.bit p .d := h.bit_eq (by decide)
  rw [RowId.decoded, ← h.regLike_eq, ← h.modLike_eq, ← h.dataOperand_eq, ← hd]
  split
  · rename_i hr hm
    exact finishCore_noOperands hr hm
  · rename_i hn
    refine finishCore_operands ?_
    by_contra hc
    simp only [not_or, not_not] at hc
    exact hn hc.1 hc.2

/-- A row with no `RM` reads no displacement. -/
theorem RowId.Parses.dispLen_eq : p.map.dispLen = if r.row.has .rm then (r.form p).dispLen else 0 := by
  rw [← h.form_eq, rmForm_dispLen h.mod_lt]
  split
  · rfl
  · rename_i hr
    obtain ⟨hm, hrm⟩ := r.noRm_fixed (Bool.eq_false_iff.mpr hr)
    simp [FieldMap.dispLen, FieldMap.hasDisp, FieldMap.direct, h.fixed .mod 0 (by decide) hm,
      h.fixed .rm 0 (by decide) hrm]

theorem RowId.Parses.dataLen_eq : p.map.dataLen = if r.row.has .hasData then (r.imm p).dataLen else 0 := by
  rw [← h.hasData_eq]
  split
  · rename_i hd
    rw [← h.imm_eq hd, immData_dataLen hd h.data]
  · simp [FieldMap.dataLen, *]

theorem RowId.Parses.length_eq : p.stop - cur = r.length p := by
  rw [h.stop, h.dispLen_eq, h.dataLen_eq, RowId.length]
  omega

end
end Sys2Proof
end

section
/-! The driver over two ways of attempting a row: where the attempts agree outcome by outcome, and what a match does
agrees, so do NEXT and TRY. With it the reference machine is the one that runs the pseudocode over `REF_TABLE`. -/

namespace Sys2Proof.Machine

/-! ### Attempts that agree -/

/-- Two attempts have the same outcome, and their results, where they match, are related. -/
inductive Agrees {α β : Type} (R : α → β → Prop) : Attempt α → Attempt β → Prop
  | matched {a : α} {b : β} (h : R a b) : Agrees R (.matched a) (.matched b)
  | noMatch : Agrees R .noMatch .noMatch
  | truncated (a : Nat) : Agrees R (.truncated a) (.truncated a)
  | noValue (a : Nat) : Agrees R (.noValue a) (.noValue a)

section
variable {α β : Type} {R : α → β → Prop}

/-- Attempts that end one and the same attempt in two ways agree. -/
theorem Agrees.of_andThen {γ : Type} {x : Attempt γ} {f : γ → α} {g : γ → β}
    (h : ∀ c, x = .matched c → R (f c) (g c)) :
    Agrees R (x.andThen fun c => .matched (f c)) (x.andThen fun c => .matched (g c)) := by
  cases x with
  | matched c => exact .matched (h c rfl)
  | noMatch => exact .noMatch
  | truncated a => exact .truncated a
  | noValue a => exact .noValue a

/-- Scans of row lists whose attempts agree row by row agree. -/
theorem Agrees.firstAttempt {ρ σ : Type} {f : ρ → Attempt α} {g : σ → Attempt β} {row : ρ → σ}
    (h : ∀ r, Agrees R (f r) (g (row r))) (rs : List ρ) :
    Agrees R (firstAttempt f rs) (firstAttempt g (rs.map row)) := by
  induction rs with
  | nil => exact .noMatch
  | cons r rs ih =>
    rw [List.map_cons, Sys2Proof.firstAttempt, Sys2Proof.firstAttempt]
    have hr := h r
    generalize f r = x, g (row r) = y at hr
    cases hr with
    | matched hab => exact .matched hab
    | noMatch => exact ih
    | truncated a => exact .truncated a
    | noValue a => exact .noValue a

/-- NEXT over scans that agree, with commits that give the same on related matches. -/
theorem nextWith_congr {s : State} {scan : State → Attempt α} {scan' : State → Attempt β}
    {commit : α → State → Result} {commit' : β → State → Result}
    (h : Agrees (fun a b => commit a s = commit' b s) (scan s) (scan' s)) :
    Driver.nextWith scan commit s = Driver.nextWith scan' commit' s := by
  unfold Driver.nextWith
  generalize scan s = x, scan' s = y at h
  cases h with
  | matched hab => simp only [hab]
  | noMatch | truncated a | noValue a => rfl

end

/-- TRY over attempts of a row that agree, with commits that give the same on related matches. -/
theorem tryWith_congr {α β ρ : Type} {s : State} {row : Option ρ} {f : ρ → Attempt α} {g : ρ → Attempt β}
    {attempt : State → Option (Attempt α)} {attempt' : State → Option (Attempt β)}
    {commit : α → State → Result} {commit' : β → State → Result} (ha : attempt s = row.map f)
    (ha' : attempt' s = row.map g) (h : ∀ r, Agrees (fun a b => commit a s = commit' b s) (f r) (g r)) :
    Driver.tryWith attempt commit s = Driver.tryWith attempt' commit' s := by
  unfold Driver.tryWith
  rw [ha, ha']
  cases row with
  | none => rfl
  | some r =>
    simp only [Option.map_some]
    have hr := h r
    generalize f r = x, g r = y at hr
    cases hr with
    | matched hab => simp only [hab]
    | noMatch | truncated a | noValue a => rfl

/-! ### The reference machine and the pseudocode over `REF_TABLE` -/

/-- A row of `REF_TABLE` with its index. -/
def indexedRow (r : RowId) : Row × Nat := (r.row, r.index)

theorem indexedRows_refTable : indexedRows refTable = RowId.all.map indexedRow := by decide

/-- Executing what a row decodes to is committing what TRY_CORE answers for the row. -/
theorem exec_eq_commitCore {s : State} {r : RowId} {p : Parsed} (h : parse s.reader s.cur r.row = .matched p) :
    exec (assemble r p) s = Driver.commitCore (finishCore r.row.tag p, r.index) s := by
  have hp := RowId.parses_of_parse h
  have hw : (finishCore r.row.tag p).w = r.bit p .w := hp.bit_eq (by decide)
  have hstop : (finishCore r.row.tag p).stop = p.stop := rfl
  rw [exec_assemble, Driver.commitCore, hw, hstop, hp.finishCore_instr, hp.length_eq]

/-- Decoding a row and TRY_CORE of it agree. -/
theorem decodeRow_agrees (s : State) (r : RowId) :
    Agrees (fun m c => Driver.run m s = Driver.commitCore c s) (decodeRow s.reader s.cur r)
      (coreAttempt s (indexedRow r)) := by
  rw [coreAttempt, tryCore, Attempt.andThen_assoc]
  exact .of_andThen fun p h => exec_eq_commitCore h

theorem next_eq_nextOf (s : State) : Driver.next s = Driver.nextOf refParams s := by
  refine nextWith_congr ?_
  show Agrees _ (decodeAt s.reader s.cur) (firstAttempt (coreAttempt s) (indexedRows refTable))
  rw [indexedRows_refTable]
  exact .firstAttempt (decodeRow_agrees s) RowId.all

theorem tryRow_eq_tryRowOf (k : Nat) (s : State) : Driver.tryRow k s = Driver.tryRowOf refParams k s := by
  refine tryWith_congr (row := RowId.ofIndex k) rfl ?_ (decodeRow_agrees s)
  show ((indexedRows refTable)[k]?).map (coreAttempt s) = _
  rw [indexedRows_refTable, List.getElem?_map, Option.map_map]
  rfl

theorem refParams_accepted : refParams.tableAccepted = true := by decide

/-- Settles O27: the table is accepted, LOAD, RESET and STATUS are the same, and NEXT and TRY agree because decoding a row
agrees with TRY_CORE of it (`exec_eq_commitCore`). -/
theorem referenceMachineIsTheInstance : Obligations.ReferenceMachineIsTheInstance := by
  intro s
  unfold step stepOf Driver.stepWith
  cases s.ops with
  | nil => rfl
  | cons op rest =>
    simp only [Driver.performOf, refParams_accepted, if_true]
    cases op with
    | next => exact next_eq_nextOf s
    | tryRow k => exact tryRow_eq_tryRowOf k s
    | load bytes | reset | status => rfl

end Sys2Proof.Machine
end

section
/-! What one step does to the registers, one case per operation and outcome, and from it the statements of 10_state.md:
who writes `BUF`, `LEN`, `CUR`, `LGP` and `STATUS`, and the invariant `State.Sound` (rules R15 to R20 and R27). -/

namespace Sys2Proof.Machine

/-! ### What an attempt at the cursor says of `LEN` -/

theorem row_byteCount_pos (r : RowId) : 1 ≤ r.row.byteCount := by cases r <;> decide

/-- A row that matches at the cursor is the completion of an instruction of at least one byte that ends at or below
`LEN`: every byte of it was read. -/
theorem exec_of_decodeRow {s : State} {r : RowId} {i : Instr} {stop : Nat}
    (h : decodeRow s.reader s.cur r = .matched (i, stop)) :
    ∃ d w len row, exec i s = complete d w len row s ∧ 1 ≤ len ∧ s.cur + len ≤ s.len := by
  obtain ⟨p, hp, hi⟩ := Attempt.andThen_eq_matched.mp h
  cases hi
  have hstop := (RowId.parses_of_parse hp).stop
  have hcount := row_byteCount_pos r
  have hreads := parse_reads s.reader s.cur r.row
  rw [hp] at hreads
  obtain ⟨b, hb⟩ := hreads.2 (p.stop - 1) (by omega) (by omega)
  have hlast := (State.reader_eq_byte hb).1
  exact ⟨_, _, p.stop - s.cur, _, exec_eq_commitCore hp, by omega, by omega⟩

theorem exec_of_decodeAt {s : State} {i : Instr} {stop : Nat} (h : decodeAt s.reader s.cur = .matched (i, stop)) :
    ∃ d w len row, exec i s = complete d w len row s ∧ 1 ≤ len ∧ s.cur + len ≤ s.len := by
  obtain ⟨r, -, hr⟩ := firstAttempt_mem (decodeRow s.reader s.cur) RowId.all (by rw [← decodeAt, h]; nofun)
  exact exec_of_decodeRow (hr.symm.trans h)

/-- An attempt that began at the cursor, at or below `LEN`, misses the byte at `LEN`, and no other: it read every offset
before the one it misses (60_exceptions.md rule R207). -/
theorem truncated_at_len {α : Type} {s : State} {pos : α → Nat} {a : Nat}
    (h : (Attempt.truncated a).Reads s.reader s.cur pos) (hc : s.cur ≤ s.len) : a = s.len := by
  obtain ⟨hle, hread, hend⟩ := h
  have hge := State.reader_eq_pastEnd.mp hend
  by_contra hne
  obtain ⟨b, hb⟩ := hread s.len hc (by omega)
  exact absurd (State.reader_eq_byte hb).1 (lt_irrefl _)

/-! ### The effect of a step -/

/-- `StepEffect s op t`: with `op` issued (or nothing) in `s`, a step can lead to `t`. -/
inductive StepEffect (s : State) : Option HostOp → State → Prop
  /-- Nothing is issued. -/
  | idle : StepEffect s none s
  /-- LOAD (43_stream_driver.md rule R118). -/
  | load (bytes : List Byte) :
    StepEffect s (some (.load bytes)) (((s.store Config.inputCapacity bytes).restart.forgetFatalPos).answer .loaded)
  /-- RESET (rule R119). -/
  | reset : StepEffect s (some .reset) ((s.restart.forgetFatalPos).answer .resetDone)
  /-- STATUS (rule R127). -/
  | status : StepEffect s (some .status) (s.answer (.status s.status s.cur s.lgp s.len s.reportedFatalPos))
  /-- NEXT while `FATAL` (rule R121). -/
  | nextFatal (hf : s.status = .fatal) : StepEffect s (some .next) (afterNextReply s .fatal)
  /-- NEXT at the end of the input (rule R122). -/
  | nextEnd (hf : s.status ≠ .fatal) (hend : s.len ≤ s.cur) :
    StepEffect s (some .next) { afterNextReply s .endOfStream with status := .ready }
  /-- NEXT that returns an instruction (rule R124). -/
  | nextInstr (d : Decoded) (w : Bool) (len row : Nat) (hf : s.status ≠ .fatal) (hpos : 1 ≤ len)
    (hend : s.cur + len ≤ s.len) : StepEffect s (some .next) (afterNext s d w len row)
  /-- NEXT that finds no row (rule R125). -/
  | nextNoMatch (b : Byte) (hf : s.status ≠ .fatal) (hb : s.reader s.cur = .byte b) :
    StepEffect s (some .next) (afterNextNoMatch s b)
  /-- NEXT that raises `TRUNCATED(a)` (60_exceptions.md rule R207). -/
  | nextTruncated (a : Nat) (hf : s.status ≠ .fatal) (hlen : s.cur ≤ s.len → a = s.len) :
    StepEffect s (some .next) (afterNextTruncated s a)
  /-- TRY while `FATAL` (42_decoder.md rule R116). -/
  | tryFatal (k : Nat) (hf : s.status = .fatal) : StepEffect s (some (.tryRow k)) (afterTryReply s .fatal)
  /-- TRY of an index outside the table (60_exceptions.md rule R212). -/
  | tryRefused (k : Nat) (hk : 59 ≤ k) : StepEffect s (some (.tryRow k)) (afterTryReply s .refused)
  /-- TRY that returns an instruction (42_decoder.md rule R116). -/
  | tryInstr (k : Nat) (d : Decoded) (w : Bool) (len row : Nat) (hf : s.status ≠ .fatal) (hpos : 1 ≤ len)
    (hend : s.cur + len ≤ s.len) : StepEffect s (some (.tryRow k)) (afterTry s d w len row)
  /-- TRY of a row that does not match (42_decoder.md rule R116). -/
  | tryNoMatch (k : Nat) (hf : s.status ≠ .fatal) : StepEffect s (some (.tryRow k)) (afterTryReply s .noMatch)
  /-- TRY that raises `TRUNCATED(a)` (60_exceptions.md rule R207). -/
  | tryTruncated (k a : Nat) (hf : s.status ≠ .fatal) (hlen : s.cur ≤ s.len → a = s.len) :
    StepEffect s (some (.tryRow k)) (afterTryTruncated s a)

theorem next_effect {s t : State} (h : s.ops.head? = some .next) (ht : step s = .next t) :
    StepEffect s (some .next) t := by
  obtain ⟨hf, rfl⟩ | ⟨hf, hend, rfl⟩ | ⟨hf, -, ⟨i, stop, hm, hi⟩ | ⟨b, -, hb, rfl⟩ | ⟨a, hm, rfl⟩⟩ :=
    step_next_cases h ht
  · exact .nextFatal hf
  · exact .nextEnd hf hend
  · obtain ⟨d, w, len, row, he, hpos, hend⟩ := exec_of_decodeAt hm
    rw [he, complete_next h] at hi
    cases hi
    exact .nextInstr d w len row hf hpos hend
  · exact .nextNoMatch b hf hb
  · exact .nextTruncated a hf (truncated_at_len (hm ▸ decodeAt_reads s.reader s.cur))

theorem try_effect {s t : State} {k : Nat} (h : s.ops.head? = some (.tryRow k)) (ht : step s = .next t) :
    StepEffect s (some (.tryRow k)) t := by
  obtain ⟨hk, rfl | ⟨hf, rfl⟩⟩ | ⟨r, -, ⟨hf, rfl⟩ | ⟨hf, ⟨i, stop, hm, hi⟩ | ⟨-, rfl⟩ | ⟨a, hm, rfl⟩⟩⟩ :=
    step_try_cases h ht
  · exact .tryRefused k hk
  · exact .tryFatal k hf
  · exact .tryFatal k hf
  · obtain ⟨d, w, len, row, he, hpos, hend⟩ := exec_of_decodeRow hm
    rw [he, complete_try h] at hi
    cases hi
    exact .tryInstr k d w len row hf hpos hend
  · exact .tryNoMatch k hf
  · exact .tryTruncated k a hf (truncated_at_len (hm ▸ decodeRow_reads s.reader s.cur r))

/-- Every step that goes on has one of the effects. -/
theorem step_effect {s t : State} (ht : step s = .next t) : StepEffect s s.ops.head? t := by
  cases ho : s.ops with
  | nil =>
    cases (step_idle ho).symm.trans ht
    exact .idle
  | cons op rest =>
    have hh : s.ops.head? = some op := by rw [ho]; rfl
    cases op with
    | load bytes => cases (step_perform ho).symm.trans ht; exact .load bytes
    | reset => cases (step_perform ho).symm.trans ht; exact .reset
    | status => cases (step_perform ho).symm.trans ht; exact .status
    | next => exact next_effect hh ht
    | tryRow k => exact try_effect hh ht

theorem step_effect_of_ops {s t : State} {op : HostOp} {rest : List HostOp} (ho : s.ops = op :: rest)
    (ht : step s = .next t) : StepEffect s (some op) t := by
  have h := step_effect ht
  rwa [ho] at h

/-! ### The invariant -/

/-- LOAD stores a buffer that holds a value at exactly the offsets below the new `LEN`. -/
theorem State.store_offsets (capacity : Nat) (bytes : List Byte) (s : State) :
    (s.store capacity bytes).buf.map Prod.fst = List.range (s.store capacity bytes).len := by
  rw [State.store_buf, State.store_len, Memory.ofBytes_map_fst, List.length_take, Nat.min_comm]

/-- Settles O20: the buffer changes with LOAD alone, which stores a whole one; `CUR` moves over bytes that were read; and
`TRUNCATED` misses the byte at `LEN`. -/
theorem stepKeepsSound : Obligations.StepKeepsSound := by
  intro s t hs ht
  obtain ⟨hbuf, hcap, hcur, hlgp, hfatal⟩ := hs
  have h := step_effect ht
  generalize s.ops.head? = op at h
  cases h with
  | load bytes => exact ⟨State.store_offsets _ bytes s, Nat.min_le_right _ _, Nat.zero_le _, le_rfl, nofun⟩
  | reset => exact ⟨hbuf, hcap, Nat.zero_le _, le_rfl, nofun⟩
  | nextEnd | nextNoMatch => exact ⟨hbuf, hcap, hcur, hlgp, nofun⟩
  | nextInstr d w len row hf hpos hend => exact ⟨hbuf, hcap, hend, le_rfl, nofun⟩
  | tryInstr k d w len row hf hpos hend => exact ⟨hbuf, hcap, hend, Nat.le_add_right_of_le hlgp, hfatal⟩
  | nextTruncated a _ hlen | tryTruncated k a _ hlen => exact ⟨hbuf, hcap, hcur, hlgp, fun _ => hlen hcur⟩
  | idle | status | nextFatal | tryFatal | tryRefused | tryNoMatch => exact ⟨hbuf, hcap, hcur, hlgp, hfatal⟩

/-- Settles O21: nothing is loaded, and the cursor stands at 0. -/
theorem resetIsSound : Obligations.ResetIsSound :=
  ⟨rfl, Nat.zero_le _, le_rfl, le_rfl, nofun⟩

/-! ### Who writes which register -/

/-- Settles O16: of the effects, LOAD's alone touches `BUF` and `LEN`. -/
theorem bufferWrittenOnlyByLoad : Obligations.BufferWrittenOnlyByLoad := by
  intro s t ht hload
  have h := step_effect ht
  generalize s.ops.head? = op at h hload
  cases h with
  | load bytes => exact absurd rfl (hload bytes)
  | _ => exact ⟨rfl, rfl⟩

/-- Settles O17: of the other effects, only an instruction returned by NEXT or TRY moves `CUR`. -/
theorem cursorMovesByInstructions : Obligations.CursorMovesByInstructions := by
  intro s t ht hload hreset
  have h := step_effect ht
  generalize s.ops.head? = op at h hload hreset
  cases h with
  | load bytes => exact absurd rfl (hload bytes)
  | reset => exact absurd rfl hreset
  | nextInstr d w len row _ hpos => exact .inr ⟨d, w, len, row, hpos, rfl, .inl rfl⟩
  | tryInstr k d w len row _ hpos => exact .inr ⟨d, w, len, row, hpos, rfl, .inr rfl⟩
  | _ => exact .inl rfl

theorem append_reply_ne {replies : List Reply} {r q : Reply} (h : r ≠ q) : replies ++ [r] ≠ replies ++ [q] :=
  fun he => h (List.singleton_inj.mp (List.append_cancel_left he))

/-- Settles O18: the effects of each operation in turn; of NEXT's, only the returned instruction writes `LGP`. -/
theorem lastGoodPosition : Obligations.LastGoodPosition := by
  intro s t op rest ho ht
  have h := step_effect_of_ops ho ht
  refine ⟨?_, ?_, ?_, ?_, ?_, fun htry heq => ?_⟩
  · rintro rfl; cases h; rfl
  · rintro bytes rfl; cases h; rfl
  · rintro rfl; cases h; rfl
  · rintro k rfl; cases h <;> rfl
  · rintro rfl
    cases h with
    | nextInstr d w len row => exact .inl ⟨d, w, len, row, rfl, rfl⟩
    | nextFatal | nextEnd | nextNoMatch | nextTruncated => exact .inr ⟨fun _ _ _ _ => append_reply_ne nofun, rfl⟩
  · cases h with
    | tryFatal k | tryRefused k | tryInstr k | tryNoMatch k | tryTruncated k => exact absurd rfl (htry k)
    | load | reset | nextInstr => rfl
    | status | nextFatal | nextEnd | nextNoMatch | nextTruncated => exact heq

/-- Settles O15: the effects of each operation in turn; of all of them, only those of RESET and LOAD begin in `FATAL` and
end elsewhere. -/
theorem statusRecordsTheLastNext : Obligations.StatusRecordsTheLastNext := by
  refine ⟨rfl, fun s t op rest ho ht => ?_⟩
  have h := step_effect_of_ops ho ht
  refine ⟨?_, ?_, ?_, ?_, ?_, fun hfatal hleft => ?_⟩
  · rintro rfl; cases h; rfl
  · rintro bytes rfl; cases h; rfl
  · rintro rfl; cases h; rfl
  · rintro k rfl
    cases h with
    | tryFatal _ hf => exact ⟨fun _ => hf, fun _ => rfl⟩
    | tryTruncated => exact ⟨fun _ => rfl, fun hne => absurd rfl hne⟩
    | tryRefused | tryInstr | tryNoMatch => exact ⟨fun he => absurd he (append_reply_ne nofun), fun _ => rfl⟩
  · rintro rfl
    cases h with
    | nextInstr d w len row => exact .inl ⟨d, w, len, row, rfl, rfl⟩
    | nextEnd => exact .inr (.inl ⟨rfl, rfl⟩)
    | nextNoMatch => exact .inr (.inr (.inl ⟨rfl, rfl⟩))
    | nextFatal hf => exact .inr (.inr (.inr ⟨rfl, hf⟩))
    | nextTruncated => exact .inr (.inr (.inr ⟨rfl, rfl⟩))
  · cases h with
    | reset => exact .inl rfl
    | load bytes => exact .inr ⟨bytes, rfl⟩
    | nextEnd hf | nextInstr _ _ _ _ hf | nextNoMatch _ hf => exact absurd hfatal hf
    | nextTruncated | tryTruncated => exact absurd rfl hleft
    | status | nextFatal | tryFatal | tryRefused | tryInstr | tryNoMatch => exact absurd hfatal hleft

/-! ### The values after power-on, RESET and LOAD -/

theorem Memory.read_ofBytes_take (capacity : Nat) (bytes : List Byte) (a : Nat) :
    Memory.read (Memory.ofBytes (bytes.take capacity)) a = if a < capacity then bytes[a]? else none := by
  rw [Memory.read_ofBytes, List.getElem?_take]

/-- Settles O1: RESET and LOAD go on in every state, and what LOAD stores reads as the bytes below the capacity. -/
theorem resetAndLoadValues : Obligations.ResetAndLoadValues := by
  refine ⟨⟨rfl, rfl, rfl, rfl, rfl⟩, fun s rest ho => ⟨_, step_perform ho, rfl, rfl, rfl, rfl, rfl⟩,
    fun s rest bytes ho => ⟨_, step_perform ho, fun a => ?_, rfl, rfl, rfl, rfl⟩⟩
  exact Memory.read_ofBytes_take Config.inputCapacity bytes a

end Sys2Proof.Machine
end

section
/-! What a read of the buffer gives, one rule per read and outcome (20_memory.md rules R29 and R30): `MemRead(a, 1)` and
`MemRead(a, 2)` for any reader, the reader of a sound state, and from these the statement about both reads. -/

namespace Sys2Proof

/-! ### The two reads, for any reader -/

theorem memRead1_of_byte {rd : Reader} {a : Nat} {b : Byte} (h : rd a = .byte b) : memRead1 rd a = .matched b := by
  rw [memRead1, h]

theorem memRead1_of_pastEnd {rd : Reader} {a : Nat} (h : rd a = .pastEnd) : memRead1 rd a = .truncated a := by
  rw [memRead1, h]

theorem memRead2_of_bytes {rd : Reader} {a : Nat} {lo hi : Byte} (hlo : rd a = .byte lo)
    (hhi : rd (a + 1) = .byte hi) : memRead2 rd a = .matched (wordOfBytes lo hi) := by
  rw [memRead2, memRead1_of_byte hlo, memRead1_of_byte hhi]
  rfl

theorem memRead2_of_first_pastEnd {rd : Reader} {a : Nat} (h : rd a = .pastEnd) : memRead2 rd a = .truncated a := by
  rw [memRead2, memRead1_of_pastEnd h]
  rfl

theorem memRead2_of_second_pastEnd {rd : Reader} {a : Nat} {b : Byte} (hb : rd a = .byte b)
    (h : rd (a + 1) = .pastEnd) : memRead2 rd a = .truncated (a + 1) := by
  rw [memRead2, memRead1_of_byte hb, memRead1_of_pastEnd h]
  rfl

/-- Little-endian: the byte at the higher offset has the weight 256. -/
theorem toNat_wordOfBytes (first second : Byte) :
    (wordOfBytes first second).toNat = second.toNat * 256 + first.toNat := by
  rw [wordOfBytes, BitVec.toNat_append, ← Nat.shiftLeft_add_eq_or_of_lt first.isLt, Nat.shiftLeft_eq]

end Sys2Proof

namespace Sys2Proof.Machine

/-! ### The reader of a sound state -/

/-- Below `LEN` the buffer of a sound state holds a byte, and the decoder reads that byte. -/
theorem State.Sound.byte_of_lt {s : State} {a : Nat} (hs : s.Sound) (ha : a < s.len) :
    ∃ b, Memory.read s.buf a = some b ∧ s.reader a = .byte b := by
  have hsome := Memory.read_isSome_of_range' s.buf 0 s.len a (hs.buffer.trans List.range_eq_range')
  obtain ⟨b, hb⟩ := Option.isSome_iff_exists.mp (hsome.trans (decide_eq_true (by omega)))
  exact ⟨b, hb, by rw [State.reader, if_pos ha, hb]⟩

/-- Settles O37: the reads of one byte and of two, at offsets where the reader of a sound state has a byte and at
offsets past the end. -/
theorem readsOfTheBuffer : Obligations.ReadsOfTheBuffer := by
  intro s a hs
  refine ⟨fun ha => ?_, fun hend => ?_, fun ha hend => ?_, fun ha => ?_⟩
  · obtain ⟨b, hb, hr⟩ := hs.byte_of_lt ha
    exact ⟨b, hb, memRead1_of_byte hr⟩
  · have hr := State.reader_eq_pastEnd.mpr hend
    exact ⟨memRead1_of_pastEnd hr, memRead2_of_first_pastEnd hr⟩
  · obtain ⟨b, -, hr⟩ := hs.byte_of_lt ha
    exact memRead2_of_second_pastEnd hr (State.reader_eq_pastEnd.mpr hend)
  · obtain ⟨lo, hlo, hrlo⟩ := hs.byte_of_lt (Nat.lt_of_succ_lt ha)
    obtain ⟨hi, hhi, hrhi⟩ := hs.byte_of_lt ha
    exact ⟨lo, hi, _, hlo, hhi, memRead2_of_bytes hrlo hrhi, toNat_wordOfBytes lo hi⟩

end Sys2Proof.Machine
end

section
/-! The descriptor bytes of a row of `REF_TABLE`, byte by byte: descriptors that take the bits of one byte read nothing
else; a row's first byte, and its second where it has two, match iff their literals stand in them, by the masks of
spec/opcode_table.json (30_encoding.md rule R67, 41_extraction_engine.md rules R90 to R96). -/

namespace Sys2Proof

/-! ### Descriptors within one byte -/

/-- The number of bits that descriptors take. -/
def bitCount (ds : List Descriptor) : Nat := (ds.map Descriptor.n).sum

@[simp] theorem bitCount_nil : bitCount [] = 0 := rfl

@[simp] theorem bitCount_cons (d : Descriptor) (ds : List Descriptor) : bitCount (d :: ds) = d.n + bitCount ds := rfl

/-- What a descriptor gives in the byte `b` with `after` bits of the byte behind it: its own value where it is implied
(rule R93), its bits otherwise (rule R92). -/
def Descriptor.valueIn (d : Descriptor) (b : Byte) (after : Nat) : Byte :=
  if d.n = 0 then BitVec.ofNat 8 d.value else (b >>> after) &&& BitVec.ofNat 8 (2 ^ d.n - 1)

/-- The literals among descriptors that end where the byte `b` ends stand in it (rule R94). -/
def literalsFit (b : Byte) : List Descriptor → Bool
  | [] => true
  | d :: ds => (d.kind != .lit || (d.valueIn b (bitCount ds)).toNat == d.value) && literalsFit b ds

/-- The map after descriptors that end where the byte `b` ends (rule R95). -/
def FieldMap.readByte (b : Byte) : List Descriptor → FieldMap → FieldMap
  | [], m => m
  | d :: ds, m => readByte b ds (m.put d.kind (if d.kind = .lit then 0 else d.valueIn b (bitCount ds)))

theorem Engine.accept_eq (e : Engine) (d : Descriptor) (v : Byte) :
    e.accept d v =
      if d.kind != .lit || v.toNat == d.value then
        .matched { e with map := e.map.put d.kind (if d.kind = .lit then 0 else v) }
      else .noMatch := by
  unfold Engine.accept
  by_cases hk : d.kind = .lit <;> simp [hk]

/-- A descriptor that takes no more bits than are left of the current byte reads nothing. -/
theorem Engine.descriptor_inByte (rd : Reader) {e : Engine} {d : Descriptor} {after : Nat}
    (h : e.bits = d.n + after) :
    e.descriptor rd d = ({ e with bits := after } : Engine).accept d (d.valueIn e.byte after) := by
  unfold Engine.descriptor Descriptor.valueIn
  by_cases hn : d.n = 0
  · obtain rfl : e.bits = after := by omega
    rw [if_pos hn, if_pos hn]
  · have hafter : e.bits - d.n = after := by omega
    rw [if_neg hn, if_neg hn, Engine.fetch, if_neg (by omega), Attempt.matched_andThen, Engine.consume, Engine.topBits,
      hafter]

/-- Descriptors that take the bits left of the current byte read nothing. -/
theorem Engine.descriptors_inByte (rd : Reader) {ds : List Descriptor} {e : Engine} (h : e.bits = bitCount ds) :
    Engine.descriptors rd ds e =
      if literalsFit e.byte ds then .matched { e with bits := 0, map := e.map.readByte e.byte ds } else .noMatch := by
  induction ds generalizing e with
  | nil =>
    obtain ⟨pos, byte, bits, map⟩ := e
    cases h
    rfl
  | cons d ds ih =>
    rw [Engine.descriptors, Engine.descriptor_inByte rd (after := bitCount ds) h, Engine.accept_eq, literalsFit,
      FieldMap.readByte]
    by_cases hv : (d.kind != .lit || (d.valueIn e.byte (bitCount ds)).toNat == d.value) = true
    · rw [if_pos hv, Attempt.matched_andThen, ih rfl, hv, Bool.true_and]
    · rw [if_neg hv, Attempt.noMatch_andThen, Bool.eq_false_iff.mpr hv, Bool.false_and, if_neg Bool.false_ne_true]

/-- Descriptors that fill a byte, where no bit is left, read the next byte and no other. -/
theorem Engine.descriptors_nextByte (rd : Reader) {ds : List Descriptor} {e : Engine} (he : e.bits = 0)
    (hd : ds.head?.all (·.n != 0) = true) (h8 : bitCount ds = 8) :
    Engine.descriptors rd ds e =
      (memRead1 rd e.pos).andThen fun b =>
        if literalsFit b ds then .matched ⟨e.pos + 1, b, 0, e.map.readByte b ds⟩ else .noMatch := by
  have hfetch : Engine.descriptors rd ds e =
      (memRead1 rd e.pos).andThen fun b => Engine.descriptors rd ds ⟨e.pos + 1, b, 8, e.map⟩ := by
    cases ds with
    | nil => cases h8
    | cons d ds =>
      have hn : d.n ≠ 0 := by simpa using hd
      simp only [Engine.descriptors, Engine.descriptor, if_neg hn, Engine.fetch, he, if_true, Attempt.andThen_assoc,
        Attempt.matched_andThen]
      rfl
  rw [hfetch]
  exact congrArg _ (funext fun b => Engine.descriptors_inByte rd h8.symm)

theorem Engine.descriptors_append (rd : Reader) (xs ys : List Descriptor) (e : Engine) :
    Engine.descriptors rd (xs ++ ys) e = (Engine.descriptors rd xs e).andThen (Engine.descriptors rd ys) := by
  induction xs generalizing e with
  | nil => rfl
  | cons d xs ih =>
    simp only [List.cons_append, Engine.descriptors, Attempt.andThen_assoc]
    exact congrArg _ (funext ih)

/-! ### Numbers made of one part for each descriptor -/

/-- The number whose bits, from the top, are one part for each descriptor, in its place. -/
def placed (part : Descriptor → Nat) : List Descriptor → Nat
  | [] => 0
  | d :: ds => part d * 2 ^ bitCount ds + placed part ds

theorem placed_lt {part : Descriptor → Nat} {ds : List Descriptor} (h : ∀ d ∈ ds, part d < 2 ^ d.n) :
    placed part ds < 2 ^ bitCount ds := by
  induction ds with
  | nil => exact Nat.one_pos
  | cons d ds ih =>
    rw [List.forall_mem_cons] at h
    have htop := Nat.mul_le_mul_right (2 ^ bitCount ds) (Nat.succ_le_of_lt h.1)
    have hlow := ih h.2
    rw [Nat.succ_mul] at htop
    rw [placed, bitCount_cons, Nat.pow_add]
    omega

/-- The part that a literal has in the mask of the literals. -/
def Descriptor.maskPart (d : Descriptor) : Nat := if d.kind = .lit then 2 ^ d.n - 1 else 0

/-- The part that a literal has in the bits that the mask must leave. -/
def Descriptor.literalPart (d : Descriptor) : Nat := if d.kind = .lit then d.value else 0

theorem Descriptor.wf5_literal {d : Descriptor} (h : d.wf5 = true) (hk : d.kind = .lit) :
    d.n ≠ 0 ∧ d.value < 2 ^ d.n := by
  simp only [Descriptor.wf5, hk, if_true, Bool.and_eq_true, decide_eq_true_eq] at h
  exact ⟨by omega, h.2⟩

theorem maskPart_placed_lt (ds : List Descriptor) : placed Descriptor.maskPart ds < 2 ^ bitCount ds := by
  refine placed_lt fun d _ => ?_
  have := Nat.two_pow_pos d.n
  unfold Descriptor.maskPart
  split <;> omega

theorem literalPart_placed_lt {ds : List Descriptor} (h : ∀ d ∈ ds, d.wf5 = true) :
    placed Descriptor.literalPart ds < 2 ^ bitCount ds := by
  refine placed_lt fun d hd => ?_
  unfold Descriptor.literalPart
  split
  · exact (Descriptor.wf5_literal (h d hd) ‹_›).2
  · exact Nat.two_pow_pos d.n

/-- A number as its part above `2 ^ s` and its part below. -/
theorem eq_mul_two_pow_add_iff {x a b s : Nat} (hb : b < 2 ^ s) :
    x = a * 2 ^ s + b ↔ x / 2 ^ s = a ∧ x % 2 ^ s = b := by
  constructor
  · rintro rfl
    rw [Nat.mul_comm]
    exact ⟨by rw [Nat.mul_add_div (Nat.two_pow_pos s), Nat.div_eq_of_lt hb, Nat.add_zero],
      by rw [Nat.mul_add_mod, Nat.mod_eq_of_lt hb]⟩
  · rintro ⟨rfl, rfl⟩
    rw [Nat.mul_comm, Nat.div_add_mod]

/-- A mask below `2 ^ s` looks at the part below alone. -/
theorem and_mod_of_lt {x k s : Nat} (hk : k < 2 ^ s) : x % 2 ^ s &&& k = x &&& k := by
  have h := Nat.and_mod_two_pow (a := x) (b := k) (n := s)
  rwa [Nat.mod_eq_of_lt (lt_of_le_of_lt Nat.and_le_right hk), Nat.mod_eq_of_lt hk, eq_comm] at h

/-- Masking the upper and the lower part of a number one by one. -/
theorem and_mul_two_pow_add_eq_iff {x a b m k s : Nat} (hk : k < 2 ^ s) (hb : b < 2 ^ s) :
    x &&& (m * 2 ^ s + k) = a * 2 ^ s + b ↔ x / 2 ^ s &&& m = a ∧ x &&& k = b := by
  obtain ⟨hdiv, hmod⟩ := (eq_mul_two_pow_add_iff (a := m) hk).mp rfl
  have hlow : (x &&& (m * 2 ^ s + k)) % 2 ^ s = x &&& k := by
    rw [Nat.and_mod_two_pow, hmod, and_mod_of_lt hk]
  rw [eq_mul_two_pow_add_iff hb, Nat.and_div_two_pow, hdiv, hlow]

theorem Descriptor.toNat_valueIn {d : Descriptor} (b : Byte) (after : Nat) (hn : d.n ≠ 0) :
    (d.valueIn b after).toNat = b.toNat / 2 ^ after % 2 ^ d.n := by
  have hlt : b.toNat >>> after < 2 ^ 8 := lt_of_le_of_lt (Nat.shiftRight_le _ _) b.isLt
  rw [Descriptor.valueIn, if_neg hn, BitVec.toNat_and, BitVec.toNat_ushiftRight, BitVec.toNat_ofNat,
    ← Nat.mod_eq_of_lt hlt, ← Nat.and_mod_two_pow, Nat.and_two_pow_sub_one_eq_mod,
    Nat.mod_eq_of_lt (lt_of_le_of_lt (Nat.mod_le _ _) hlt), Nat.shiftRight_eq_div_pow]

/-- The literals stand in a byte iff the mask of the literals leaves their bits. -/
theorem literalsFit_iff_mask {b : Byte} {ds : List Descriptor} (h : ∀ d ∈ ds, d.wf5 = true) :
    literalsFit b ds = true ↔ b.toNat &&& placed Descriptor.maskPart ds = placed Descriptor.literalPart ds := by
  induction ds with
  | nil => simp [literalsFit, placed]
  | cons d ds ih =>
    rw [List.forall_mem_cons] at h
    rw [placed, placed, and_mul_two_pow_add_eq_iff (maskPart_placed_lt ds) (literalPart_placed_lt h.2), ← ih h.2,
      literalsFit, Bool.and_eq_true]
    refine and_congr_left' ?_
    unfold Descriptor.maskPart Descriptor.literalPart
    by_cases hk : d.kind = .lit
    · rw [if_pos hk, if_pos hk, Nat.and_two_pow_sub_one_eq_mod,
        ← Descriptor.toNat_valueIn b _ (Descriptor.wf5_literal h.1 hk).1]
      simp [hk]
    · simp [hk]

end Sys2Proof
end

section
/-! The rows of `REF_TABLE` by their descriptor bytes: what EXTRACT of a row answers by its first byte and, where the
row has two, its second; and with it the statement about the opcode table's masks. -/

namespace Sys2Proof

/-! ### The descriptor bytes of a row -/

/-- The leading descriptors that take `room` bits. -/
def takeBits : Nat → List Descriptor → List Descriptor
  | 0, _ => []
  | _ + 1, [] => []
  | room + 1, d :: ds => d :: takeBits (room + 1 - d.n) ds

/-- The descriptors of the row's first byte. -/
def RowId.firstFields (r : RowId) : List Descriptor := takeBits 8 r.row.fields

/-- The descriptors after the row's first byte: those of its second, where it has two, and the implied ones. -/
def RowId.laterFields (r : RowId) : List Descriptor := r.row.fields.drop r.firstFields.length

theorem RowId.firstFields_append_laterFields (r : RowId) : r.firstFields ++ r.laterFields = r.row.fields := by
  cases r <;> rfl

theorem RowId.bitCount_firstFields (r : RowId) : bitCount r.firstFields = 8 := by cases r <;> rfl

theorem RowId.opcodeMask_bytes (r : RowId) : r.opcodeMask.bytes = 1 ∨ r.opcodeMask.bytes = 2 := by cases r <;> decide

/-- A row of one descriptor byte has implied descriptors alone after it, a row of two has those of its second byte. -/
theorem RowId.bitCount_laterFields (r : RowId) : bitCount r.laterFields = (r.opcodeMask.bytes - 1) * 8 := by
  cases r <;> rfl

theorem RowId.row_wf5 (r : RowId) : ∀ d ∈ r.row.fields, d.wf5 = true := by cases r <;> decide

/-- spec/opcode_table.json has the masks of the rows' literals. -/
theorem RowId.opcodeMask_eq (r : RowId) :
    r.opcodeMask =
      if r.opcodeMask.bytes = 1 then
        ⟨1, placed Descriptor.maskPart r.firstFields, placed Descriptor.literalPart r.firstFields⟩
      else ⟨2, placed Descriptor.maskPart r.firstFields * 2 ^ 8 + placed Descriptor.maskPart r.laterFields,
        placed Descriptor.literalPart r.firstFields * 2 ^ 8 + placed Descriptor.literalPart r.laterFields⟩ := by
  cases r <;> decide

/-- The first descriptor of a descriptor byte takes bits of it. -/
theorem RowId.firstFields_head (r : RowId) : r.firstFields.head?.all (·.n != 0) = true := by cases r <;> rfl

theorem RowId.laterFields_head (r : RowId) :
    r.opcodeMask.bytes = 2 → r.laterFields.head?.all (·.n != 0) = true := by
  cases r <;> decide

/-! ### The masks of the opcode table -/

theorem RowId.firstFields_wf5 (r : RowId) : ∀ d ∈ r.firstFields, d.wf5 = true := fun d hd =>
  r.row_wf5 d (r.firstFields_append_laterFields ▸ List.mem_append_left _ hd)

theorem RowId.laterFields_wf5 (r : RowId) : ∀ d ∈ r.laterFields, d.wf5 = true := fun d hd =>
  r.row_wf5 d (r.firstFields_append_laterFields ▸ List.mem_append_right _ hd)

theorem mul_two_pow_add_div_256 {m k : Nat} (hk : k < 2 ^ 8) : (m * 2 ^ 8 + k) / 256 = m := by omega

theorem RowId.firstFits_eq (r : RowId) (b : Byte) : r.opcodeMask.firstFits b = literalsFit b r.firstFields := by
  have hmask := literalsFit_iff_mask (b := b) r.firstFields_wf5
  rw [Bool.eq_iff_iff, hmask, OpcodeMask.firstFits]
  split
  · rename_i h1
    rw [beq_iff_eq, r.opcodeMask_eq, if_pos h1]
  · rename_i h1
    have hm := maskPart_placed_lt r.laterFields
    have hb := literalPart_placed_lt r.laterFields_wf5
    rw [r.bitCount_laterFields, r.opcodeMask_bytes.resolve_left h1] at hm hb
    rw [beq_iff_eq, r.opcodeMask_eq, if_neg h1, mul_two_pow_add_div_256 hm, mul_two_pow_add_div_256 hb]

theorem RowId.fits_eq {r : RowId} (h2 : r.opcodeMask.bytes = 2) (b c : Byte) :
    r.opcodeMask.fits b c = (literalsFit b r.firstFields && literalsFit c r.laterFields) := by
  have hm := maskPart_placed_lt r.laterFields
  have hb := literalPart_placed_lt r.laterFields_wf5
  have hc := c.isLt
  rw [r.bitCount_laterFields, h2] at hm hb
  have hdiv : (b.toNat * 2 ^ 8 + c.toNat) / 2 ^ 8 = b.toNat := by omega
  have hmod : (b.toNat * 2 ^ 8 + c.toNat) % 2 ^ 8 = c.toNat := by omega
  have hlow : (b.toNat * 2 ^ 8 + c.toNat) &&& placed Descriptor.maskPart r.laterFields =
      c.toNat &&& placed Descriptor.maskPart r.laterFields := by
    rw [← and_mod_of_lt hm, hmod]
  rw [Bool.eq_iff_iff, Bool.and_eq_true, literalsFit_iff_mask r.firstFields_wf5,
    literalsFit_iff_mask r.laterFields_wf5, OpcodeMask.fits, beq_iff_eq, r.opcodeMask_eq, if_neg (by omega),
    show (256 : Nat) = 2 ^ 8 from rfl, and_mul_two_pow_add_eq_iff hm hb, hdiv, hlow]

/-! ### EXTRACT of a row, by its descriptor bytes -/

/-- The field map of a row whose first byte is `b` and whose second, where it has one, is `c`. -/
def RowId.mapOf (r : RowId) (b c : Byte) : FieldMap :=
  (FieldMap.blank.readByte b r.firstFields).readByte c r.laterFields

theorem RowId.extract_eq (r : RowId) (rd : Reader) (cur : Nat) :
    extract rd cur r.row =
      (memRead1 rd cur).andThen fun b =>
        if r.opcodeMask.firstFits b then
          (Engine.descriptors rd r.laterFields ⟨cur + 1, b, 0, FieldMap.blank.readByte b r.firstFields⟩).andThen
            fun e => .matched (e.map, e.pos)
        else .noMatch := by
  have hbyte := Engine.descriptors_nextByte rd (e := Engine.start cur) rfl r.firstFields_head r.bitCount_firstFields
  rw [extract, ← r.firstFields_append_laterFields, Engine.descriptors_append, hbyte, Attempt.andThen_assoc,
    Attempt.andThen_assoc]
  refine congrArg _ (funext fun b => ?_)
  rw [r.firstFits_eq, Attempt.ite_andThen]
  rfl

/-- No literal stands among the descriptors after a single descriptor byte. -/
theorem RowId.literalsFit_laterFields {r : RowId} (h1 : r.opcodeMask.bytes = 1) (b : Byte) :
    literalsFit b r.laterFields = true := by
  rw [literalsFit_iff_mask r.laterFields_wf5]
  have h : placed Descriptor.maskPart r.laterFields = 0 ∧ placed Descriptor.literalPart r.laterFields = 0 := by
    have hm := maskPart_placed_lt r.laterFields
    have hb := literalPart_placed_lt r.laterFields_wf5
    rw [r.bitCount_laterFields, h1] at hm hb
    omega
  rw [h.1, h.2, Nat.and_zero]

section
variable {rd : Reader} {cur : Nat} {b : Byte} {r : RowId} (hb : rd cur = .byte b)
include hb

theorem extract_of_first_differs (hf : r.opcodeMask.firstFits b = false) : extract rd cur r.row = .noMatch := by
  rw [r.extract_eq, memRead1_of_byte hb, Attempt.matched_andThen, hf, if_neg Bool.false_ne_true]

theorem extract_oneByte (h1 : r.opcodeMask.bytes = 1) (hf : r.opcodeMask.firstFits b = true) :
    extract rd cur r.row = .matched (r.mapOf b b, cur + 1) := by
  have hcount : bitCount r.laterFields = 0 := by rw [r.bitCount_laterFields, h1]
  rw [r.extract_eq, memRead1_of_byte hb, Attempt.matched_andThen, hf, if_pos rfl,
    Engine.descriptors_inByte rd hcount.symm, if_pos (RowId.literalsFit_laterFields h1 b)]
  rfl

theorem extract_twoBytes (h2 : r.opcodeMask.bytes = 2) (hf : r.opcodeMask.firstFits b = true) :
    extract rd cur r.row =
      (memRead1 rd (cur + 1)).andThen fun c =>
        if r.opcodeMask.fits b c then .matched (r.mapOf b c, cur + 2) else .noMatch := by
  have hcount : bitCount r.laterFields = 8 := by rw [r.bitCount_laterFields, h2]
  rw [r.extract_eq, memRead1_of_byte hb, Attempt.matched_andThen, hf, if_pos rfl,
    Engine.descriptors_nextByte rd rfl (r.laterFields_head h2) hcount, Attempt.andThen_assoc]
  refine congrArg _ (funext fun c => ?_)
  rw [RowId.fits_eq h2, ← r.firstFits_eq, hf, Bool.true_and, Attempt.ite_andThen]
  rfl

end

theorem RowId.firstFits_of_fits {r : RowId} (h2 : r.opcodeMask.bytes = 2) {b c : Byte}
    (hf : r.opcodeMask.fits b c = true) : r.opcodeMask.firstFits b = true := by
  rw [RowId.fits_eq h2, Bool.and_eq_true] at hf
  rw [r.firstFits_eq, hf.1]

theorem extract_of_fits {rd : Reader} {cur : Nat} {b c : Byte} {r : RowId} (hb : rd cur = .byte b)
    (hc : rd (cur + 1) = .byte c) (h2 : r.opcodeMask.bytes = 2) (hf : r.opcodeMask.fits b c = true) :
    extract rd cur r.row = .matched (r.mapOf b c, cur + 2) := by
  rw [extract_twoBytes hb h2 (RowId.firstFits_of_fits h2 hf), memRead1_of_byte hc, Attempt.matched_andThen, if_pos hf]

theorem extract_of_second_differs {rd : Reader} {cur : Nat} {b c : Byte} {r : RowId} (hb : rd cur = .byte b)
    (hc : rd (cur + 1) = .byte c) (h2 : r.opcodeMask.bytes = 2) (hf : r.opcodeMask.fits b c = false) :
    extract rd cur r.row = .noMatch := by
  cases hfirst : r.opcodeMask.firstFits b with
  | false => exact extract_of_first_differs hb hfirst
  | true =>
    rw [extract_twoBytes hb h2 hfirst, memRead1_of_byte hc, Attempt.matched_andThen, hf, if_neg Bool.false_ne_true]

end Sys2Proof

namespace Sys2Proof.Machine

/-- Settles O34: the masks are those of the row's literals, and EXTRACT matches iff the literals stand in its bytes. -/
theorem literalBitsDecideTheRow : Obligations.LiteralBitsDecideTheRow := fun _ _ _ _ _ hb hc =>
  ⟨fun h1 => ⟨fun hf => ⟨_, extract_oneByte hb h1 hf⟩, extract_of_first_differs hb⟩,
    fun h2 => ⟨fun hf => ⟨_, extract_of_fits hb hc h2 hf⟩, extract_of_second_differs hb hc h2⟩⟩

end Sys2Proof.Machine
end

section
/-! Which rows of `REF_TABLE` can match: the opcode map (30_encoding.md rule R67), that no two rows match one input and
that the order of the rows plays no part (rule R57), and NEXT on bytes that no row matches (rules R68 and R69). -/

namespace Sys2Proof

open Sys2Proof.Machine

/-! ### The outcome of a row, by its first byte -/

theorem Attempt.andThen_ne_noMatch {α β : Type} {x : Attempt α} {f : α → Attempt β} (hx : x ≠ .noMatch)
    (hf : ∀ a, f a ≠ .noMatch) : x.andThen f ≠ .noMatch := by
  cases x with
  | matched a => exact hf a
  | noMatch => exact absurd rfl hx
  | truncated a | noValue a => nofun

theorem memRead1_eq_matched {rd : Reader} {a : Nat} {b : Byte} : memRead1 rd a = .matched b ↔ rd a = .byte b := by
  unfold memRead1
  cases rd a <;> simp

theorem memRead1_ne_noMatch (rd : Reader) (a : Nat) : memRead1 rd a ≠ .noMatch := by
  unfold memRead1
  split <;> nofun

theorem memRead2_ne_noMatch (rd : Reader) (a : Nat) : memRead2 rd a ≠ .noMatch :=
  Attempt.andThen_ne_noMatch (memRead1_ne_noMatch rd a) fun _ =>
    Attempt.andThen_ne_noMatch (memRead1_ne_noMatch rd _) nofun

/-- Step 6 has no literal to differ. -/
theorem readTrailing_ne_noMatch (rd : Reader) (m : FieldMap) (p : Nat) : readTrailing rd m p ≠ .noMatch := by
  refine Attempt.andThen_ne_noMatch ?_ fun d => Attempt.andThen_ne_noMatch ?_ nofun
  · unfold readDisp
    split
    · split
      · exact Attempt.andThen_ne_noMatch (memRead2_ne_noMatch rd p) nofun
      · exact Attempt.andThen_ne_noMatch (memRead1_ne_noMatch rd p) nofun
    · nofun
  · unfold readData
    split
    · split
      · exact Attempt.andThen_ne_noMatch (memRead2_ne_noMatch rd _) nofun
      · exact Attempt.andThen_ne_noMatch (memRead1_ne_noMatch rd _) nofun
    · nofun

/-- A row's attempt ends in `NOMATCH` in EXTRACT alone. -/
theorem decodeRow_eq_noMatch_iff {rd : Reader} {cur : Nat} {r : RowId} :
    decodeRow rd cur r = .noMatch ↔ extract rd cur r.row = .noMatch := by
  unfold decodeRow parse
  cases extract rd cur r.row with
  | matched x =>
    exact iff_of_false (Attempt.andThen_ne_noMatch (readTrailing_ne_noMatch rd x.1 x.2) nofun) nofun
  | noMatch => simp
  | truncated a | noValue a => simp

theorem decodeRow_truncated {rd : Reader} {cur a : Nat} {r : RowId} (h : extract rd cur r.row = .truncated a) :
    decodeRow rd cur r = .truncated a := by
  rw [decodeRow, parse, h]
  rfl

theorem decodeRow_of_noValue {rd : Reader} {cur a : Nat} {r : RowId} (h : extract rd cur r.row = .noValue a) :
    decodeRow rd cur r = .noValue a := by
  rw [decodeRow, parse, h]
  rfl

/-- What EXTRACT has read of a row that it matches. -/
theorem extract_matched_cases {rd : Reader} {cur : Nat} {r : RowId} {x : FieldMap × Nat}
    (h : extract rd cur r.row = .matched x) :
    ∃ b, rd cur = .byte b ∧ r.opcodeMask.firstFits b = true ∧
      (r.opcodeMask.bytes = 1 ∧ x = (r.mapOf b b, cur + 1) ∨
       r.opcodeMask.bytes = 2 ∧ ∃ c, rd (cur + 1) = .byte c ∧ r.opcodeMask.fits b c = true ∧
        x = (r.mapOf b c, cur + 2)) := by
  obtain ⟨b, hread, -⟩ := Attempt.andThen_eq_matched.mp (r.extract_eq rd cur ▸ h)
  have hb := memRead1_eq_matched.mp hread
  have hf : r.opcodeMask.firstFits b = true := by
    by_contra hn
    cases (extract_of_first_differs hb (Bool.eq_false_iff.mpr hn)).symm.trans h
  refine ⟨b, hb, hf, ?_⟩
  obtain h1 | h2 := r.opcodeMask_bytes
  · exact .inl ⟨h1, by cases (extract_oneByte hb h1 hf).symm.trans h; rfl⟩
  · obtain ⟨c, hc, hx⟩ := Attempt.andThen_eq_matched.mp ((extract_twoBytes hb h2 hf).symm.trans h)
    split at hx
    · exact .inr ⟨h2, c, memRead1_eq_matched.mp hc, ‹_›, by cases hx; rfl⟩
    · cases hx

/-! ### The opcode map -/

theorem RowId.mem_all (r : RowId) : r ∈ RowId.all := List.mem_of_getElem? (RowId.ofIndex_index r)

/-- Rule R67's map lists, for each first byte, the rows whose literals stand in it, in table order. -/
theorem opcodeMapRows_eq (b : Byte) : opcodeMapRows b = RowId.all.filter fun r => r.opcodeMask.firstFits b := by
  revert b; decide

theorem mem_opcodeMapRows {r : RowId} {b : Byte} : r ∈ opcodeMapRows b ↔ r.opcodeMask.firstFits b = true := by
  rw [opcodeMapRows_eq, List.mem_filter]
  exact and_iff_right r.mem_all

/-- The rows for a first byte are none, or those of a line of the map. -/
theorem opcodeMapRows_line {r : RowId} {b : Byte} (h : r ∈ opcodeMapRows b) :
    ∃ e ∈ opcodeMap, opcodeMapRows b = e.2.2 := by
  unfold opcodeMapRows at h ⊢
  split at h
  · rename_i e he
    exact ⟨e, List.mem_of_find?_eq_some he, rfl⟩
  · cases h

/-- A row of the map with only its first byte present: a row of two descriptor bytes misses its second. -/
theorem decodeRow_singleton {r : RowId} {b : Byte} (h2 : r.opcodeMask.bytes = 2)
    (hf : r.opcodeMask.firstFits b = true) : decodeRow (listReader [b]) 0 r = .truncated 1 :=
  decodeRow_truncated (extract_twoBytes rfl h2 hf)

theorem decodeRow_singleton_eq_noMatch_iff {r : RowId} {b : Byte} :
    decodeRow (listReader [b]) 0 r = .noMatch ↔ r.opcodeMask.firstFits b = false := by
  cases hf : r.opcodeMask.firstFits b with
  | false => exact iff_of_true (decodeRow_eq_noMatch_iff.mpr (extract_of_first_differs rfl hf)) rfl
  | true =>
    refine iff_of_false ?_ nofun
    obtain h1 | h2 := r.opcodeMask_bytes
    · rw [decodeRow_eq_noMatch_iff, extract_oneByte rfl h1 hf]
      nofun
    · rw [decodeRow_singleton h2 hf]
      nofun

/-! ### No two rows match -/

/-- Two rows on one line of the map have two descriptor bytes each, and a literal bit of both that differs. -/
theorem opcodeMap_literals_differ : ∀ e ∈ opcodeMap, ∀ q ∈ e.2.2, ∀ r ∈ e.2.2, q = r ∨
    q.opcodeMask.bytes = 2 ∧ r.opcodeMask.bytes = 2 ∧
      q.opcodeMask.bits &&& r.opcodeMask.mask ≠ r.opcodeMask.bits &&& q.opcodeMask.mask := by decide

/-- Rows that share a first byte: both have a second, and no second byte is right for both. -/
theorem rows_of_first {q r : RowId} {b : Byte} (hq : q.opcodeMask.firstFits b = true)
    (hr : r.opcodeMask.firstFits b = true) :
    q = r ∨ q.opcodeMask.bytes = 2 ∧ r.opcodeMask.bytes = 2 ∧
      ∀ c, q.opcodeMask.fits b c = true → r.opcodeMask.fits b c = false := by
  obtain ⟨e, he, hrows⟩ := opcodeMapRows_line (mem_opcodeMapRows.mpr hq)
  refine (opcodeMap_literals_differ e he q (hrows ▸ mem_opcodeMapRows.mpr hq) r
    (hrows ▸ mem_opcodeMapRows.mpr hr)).imp_right fun ⟨hq2, hr2, hne⟩ => ⟨hq2, hr2, fun c hqc => ?_⟩
  by_contra hrc
  rw [Bool.not_eq_false] at hrc
  simp only [OpcodeMask.fits, beq_iff_eq] at hqc hrc
  refine hne ?_
  rw [← hqc, ← hrc, Nat.and_assoc, Nat.and_assoc, Nat.and_comm q.opcodeMask.mask]

theorem row_of_extract_matched {rd : Reader} {cur : Nat} {q r : RowId} {x y : FieldMap × Nat}
    (hx : extract rd cur q.row = .matched x) (hy : extract rd cur r.row = .matched y) : q = r := by
  obtain ⟨b, hb, hq, hqx⟩ := extract_matched_cases hx
  obtain ⟨b', hb', hr, hry⟩ := extract_matched_cases hy
  cases hb.symm.trans hb'
  obtain heq | ⟨hq2, hr2, hno⟩ := rows_of_first hq hr
  · exact heq
  · obtain ⟨h1, -⟩ | ⟨-, c, hc, hqc, -⟩ := hqx
    · omega
    · cases (extract_of_second_differs hb hc hr2 (hno c hqc)).symm.trans hy

/-- Whatever the input, the rows that do not end in `NOMATCH` have one outcome. -/
theorem decodeRow_eq_of_ne_noMatch {rd : Reader} {cur : Nat} {q r : RowId} (hq : decodeRow rd cur q ≠ .noMatch)
    (hr : decodeRow rd cur r ≠ .noMatch) : decodeRow rd cur q = decodeRow rd cur r := by
  cases hb : rd cur with
  | pastEnd => rw [decodeRow_pastEnd hb, decodeRow_pastEnd hb]
  | noValue => rw [decodeRow_noValue hb, decodeRow_noValue hb]
  | byte b =>
    have hfits : ∀ p : RowId, decodeRow rd cur p ≠ .noMatch → p.opcodeMask.firstFits b = true := fun p hp => by
      by_contra hn
      exact hp (decodeRow_eq_noMatch_iff.mpr (extract_of_first_differs hb (Bool.eq_false_iff.mpr hn)))
    obtain rfl | ⟨hq2, hr2, hno⟩ := rows_of_first (hfits q hq) (hfits r hr)
    · rfl
    · have hxq := extract_twoBytes hb hq2 (hfits q hq)
      have hxr := extract_twoBytes hb hr2 (hfits r hr)
      unfold memRead1 at hxq hxr
      cases hc : rd (cur + 1) with
      | pastEnd =>
        rw [hc] at hxq hxr
        rw [decodeRow_truncated hxq, decodeRow_truncated hxr]
      | noValue =>
        rw [hc] at hxq hxr
        rw [decodeRow_of_noValue hxq, decodeRow_of_noValue hxr]
      | byte c =>
        cases hqc : q.opcodeMask.fits b c with
        | false => exact absurd (decodeRow_eq_noMatch_iff.mpr (extract_of_second_differs hb hc hq2 hqc)) hq
        | true => exact absurd (decodeRow_eq_noMatch_iff.mpr (extract_of_second_differs hb hc hr2 (hno c hqc))) hr

/-! ### The order of the rows -/

theorem firstAttempt_eq_noMatch_iff {ρ α : Type} {f : ρ → Attempt α} {rs : List ρ} :
    firstAttempt f rs = .noMatch ↔ ∀ r ∈ rs, f r = .noMatch := by
  induction rs with
  | nil => simp [firstAttempt]
  | cons r rs ih =>
    rw [firstAttempt, List.forall_mem_cons, ← ih]
    cases f r <;> simp

/-- Where all rows that do not end in `NOMATCH` have one outcome, it is the scan's. -/
theorem firstAttempt_eq_of_mem {ρ α : Type} {f : ρ → Attempt α} {rs : List ρ} {r : ρ}
    (h1 : ∀ p q, f p ≠ .noMatch → f q ≠ .noMatch → f p = f q) (hr : r ∈ rs) (hf : f r ≠ .noMatch) :
    firstAttempt f rs = f r := by
  obtain ⟨q, hq, hfq⟩ := firstAttempt_mem f rs fun h => hf (firstAttempt_eq_noMatch_iff.mp h r hr)
  exact hfq.trans (h1 q r (fun h => hf (firstAttempt_eq_noMatch_iff.mp (hfq.trans h) r hr)) hf)

theorem firstAttempt_decodeRow {rd : Reader} {cur : Nat} {r : RowId} {order : List RowId} (hr : r ∈ order)
    (hf : decodeRow rd cur r ≠ .noMatch) : firstAttempt (decodeRow rd cur) order = decodeRow rd cur r :=
  firstAttempt_eq_of_mem (fun _ _ => decodeRow_eq_of_ne_noMatch) hr hf

/-- A row that does not end in `NOMATCH` decides the scan of the table. -/
theorem decodeAt_eq_decodeRow {rd : Reader} {cur : Nat} {r : RowId} (hf : decodeRow rd cur r ≠ .noMatch) :
    decodeAt rd cur = decodeRow rd cur r := firstAttempt_decodeRow r.mem_all hf

theorem firstAttempt_perm {order : List RowId} (rd : Reader) (cur : Nat) (h : order.Perm RowId.all) :
    firstAttempt (decodeRow rd cur) order = decodeAt rd cur := by
  by_cases hn : ∀ r ∈ order, decodeRow rd cur r = .noMatch
  · have hall : ∀ r ∈ RowId.all, decodeRow rd cur r = .noMatch := fun r hr => hn r (h.mem_iff.mpr hr)
    rw [decodeAt, firstAttempt_eq_noMatch_iff.mpr hn, firstAttempt_eq_noMatch_iff.mpr hall]
  · push Not at hn
    obtain ⟨r, hr, hf⟩ := hn
    rw [firstAttempt_decodeRow hr hf, decodeAt_eq_decodeRow hf]

end Sys2Proof

namespace Sys2Proof.Machine

/-- Settles O33: the map lists the rows whose first literals stand in the byte, and these alone go on past it. -/
theorem opcodeMapByFirstByte : Obligations.OpcodeMapByFirstByte := by
  intro b r
  rw [mem_opcodeMapRows, ne_eq, decodeRow_singleton_eq_noMatch_iff, Bool.not_eq_false]
  exact ⟨Iff.rfl, fun hf h2 => decodeRow_singleton h2 hf⟩

/-- Settles O32: rows that share a first byte have a second whose literals differ (`rows_of_first`), so at most one row
matches, and all rows that do not end in `NOMATCH` have one outcome. -/
theorem referenceTableIsUnambiguous : Obligations.ReferenceTableIsUnambiguous := by
  refine ⟨fun _ _ _ _ _ _ => row_of_extract_matched, fun q r b hq1 hr2 => ?_, fun _ => firstAttempt_perm⟩
  rw [decodeRow_singleton_eq_noMatch_iff, decodeRow_singleton_eq_noMatch_iff]
  by_contra hno
  simp only [not_or, Bool.not_eq_false] at hno
  obtain rfl | ⟨hq2, -⟩ := rows_of_first hno.1 hno.2 <;> omega

/-! ### Bytes that no row matches -/

theorem step_next_of_noMatch {s : State} {b : Byte} (hn : s.NextIssued) (hb : s.reader s.cur = .byte b)
    (h : decodeAt s.reader s.cur = .noMatch) : step s = .next (afterNextNoMatch s b) := by
  have hlen := (State.reader_eq_byte hb).1
  rw [step_next_eq hn.1, Driver.next, Driver.nextWith, if_neg hn.2, if_neg (by omega), h]
  show Driver.nextNoMatch s = _
  rw [Driver.nextNoMatch, memRead1_of_byte hb]
  rfl

/-- With the first byte present, only the rows of its line of the map are to be looked at. -/
theorem decodeAt_noMatch_of_map {rd : Reader} {cur : Nat} {b : Byte} (hb : rd cur = .byte b)
    (h : ∀ r ∈ opcodeMapRows b, decodeRow rd cur r = .noMatch) : decodeAt rd cur = .noMatch := by
  refine firstAttempt_eq_noMatch_iff.mpr fun r _ => ?_
  cases hf : r.opcodeMask.firstFits b with
  | false => exact decodeRow_eq_noMatch_iff.mpr (extract_of_first_differs hb hf)
  | true => exact h r (mem_opcodeMapRows.mpr hf)

/-- Settles O35: each clause leaves no row of the first byte's line whose literals stand there. -/
theorem unmatchedByteSequences : Obligations.UnmatchedByteSequences := by
  intro s b hn hb
  have hnone : opcodeMapRows b = [] → step s = .next (afterNextNoMatch s b) := fun h =>
    step_next_of_noMatch hn hb (decodeAt_noMatch_of_map hb (by simp [h]))
  have hsecond : ∀ c, s.reader (s.cur + 1) = .byte c →
      (∀ r ∈ opcodeMapRows b, r.opcodeMask.bytes = 2 ∧ r.opcodeMask.fits b c = false) →
      step s = .next (afterNextNoMatch s b) := fun c hc h =>
    step_next_of_noMatch hn hb (decodeAt_noMatch_of_map hb fun r hr =>
      decodeRow_eq_noMatch_iff.mpr (extract_of_second_differs hb hc (h r hr).1 (h r hr).2))
  have hlines : ∀ p ∈ ([0x26, 0x2E, 0x36, 0x3E, 0xF0, 0xF2, 0xF3] : List Byte), opcodeMapRows p = [] := by decide
  have hadjust : ∀ c : Byte, c ≠ 0x0A →
      (∀ r ∈ opcodeMapRows 0xD4, r.opcodeMask.bytes = 2 ∧ r.opcodeMask.fits 0xD4 c = false) ∧
      (∀ r ∈ opcodeMapRows 0xD5, r.opcodeMask.bytes = 2 ∧ r.opcodeMask.fits 0xD5 c = false) := by decide
  refine ⟨hnone, fun hmem => hnone (hlines b hmem), fun c hc => ⟨hsecond c hc, fun hd hne => hsecond c hc ?_⟩⟩
  obtain rfl | rfl := hd
  · exact (hadjust c hne).1
  · exact (hadjust c hne).2

end Sys2Proof.Machine
end

section
/-! A row's descriptor bytes and the values of its fields determine each other: the bytes are the row's pattern with the
values in their places (30_encoding.md rules R65 and R66), and EXTRACT of these bytes gives the values back. -/

namespace Sys2Proof

open Sys2Proof.Machine

/-! ### One byte -/

/-- The part that a descriptor has in its byte, where the fields have the values `v`. -/
def Descriptor.patternPart (v : FieldKind → Byte) (d : Descriptor) : Nat :=
  if d.n = 0 then 0 else if d.kind = .lit then d.value else (v d.kind).toNat

/-- The fields among descriptors that end where the byte `b` ends take the values `v` from it. -/
def FieldsAre (v : FieldKind → Byte) (b : Byte) : List Descriptor → Prop
  | [] => True
  | d :: ds => (d.kind ≠ .lit → d.n ≠ 0 → d.valueIn b (bitCount ds) = v d.kind) ∧ FieldsAre v b ds

/-- The values have the widths of the fields among these descriptors. -/
def ValuesFit (v : FieldKind → Byte) (ds : List Descriptor) : Prop :=
  ∀ d ∈ ds, d.kind ≠ .lit → d.n ≠ 0 → (v d.kind).toNat < 2 ^ d.n

theorem patternPart_placed_lt {v : FieldKind → Byte} {ds : List Descriptor} (hw : ∀ d ∈ ds, d.wf5 = true)
    (hv : ValuesFit v ds) : placed (Descriptor.patternPart v) ds < 2 ^ bitCount ds := by
  refine placed_lt fun d hd => ?_
  unfold Descriptor.patternPart
  split
  · exact Nat.two_pow_pos d.n
  · split
    · exact (Descriptor.wf5_literal (hw d hd) ‹_›).2
    · exact hv d hd ‹_› ‹_›

theorem placed_congr {f g : Descriptor → Nat} {ds : List Descriptor} (h : ∀ d ∈ ds, f d = g d) :
    placed f ds = placed g ds := by
  induction ds with
  | nil => rfl
  | cons d ds ih =>
    rw [List.forall_mem_cons] at h
    rw [placed, placed, h.1, ih h.2]

/-- The descriptor that stands before `after` bits takes its part of the pattern. -/
theorem Descriptor.part_iff {d : Descriptor} {v : FieldKind → Byte} {b : Byte} {after : Nat} (hw : d.wf5 = true) :
    (d.kind != .lit || (d.valueIn b after).toNat == d.value) = true ∧
        (d.kind ≠ .lit → d.n ≠ 0 → d.valueIn b after = v d.kind) ↔
      b.toNat / 2 ^ after % 2 ^ d.n = d.patternPart v := by
  unfold Descriptor.patternPart
  by_cases hk : d.kind = .lit
  · have hn := (Descriptor.wf5_literal hw hk).1
    simp [hk, hn, ← Descriptor.toNat_valueIn b after hn]
  · by_cases hn : d.n = 0
    · simp [hk, hn, Nat.mod_one]
    · simp [hk, hn, ← Descriptor.toNat_valueIn b after hn, BitVec.toNat_inj]

/-- Descriptors match at the end of a byte, their fields with the values `v`, iff their pattern stands there. -/
theorem fields_iff_placed {v : FieldKind → Byte} {b : Byte} {ds : List Descriptor} (hw : ∀ d ∈ ds, d.wf5 = true)
    (hv : ValuesFit v ds) :
    literalsFit b ds = true ∧ FieldsAre v b ds ↔
      b.toNat % 2 ^ bitCount ds = placed (Descriptor.patternPart v) ds := by
  induction ds with
  | nil => simp [literalsFit, FieldsAre, placed, Nat.mod_one]
  | cons d ds ih =>
    have hlow := patternPart_placed_lt (fun e he => hw e (List.mem_cons_of_mem d he))
      fun e he => hv e (List.mem_cons_of_mem d he)
    rw [placed, eq_mul_two_pow_add_iff hlow, bitCount_cons, Nat.pow_add, Nat.mod_mul_left_div_self,
      Nat.mod_mul_left_mod, ← Descriptor.part_iff (hw d List.mem_cons_self),
      ← ih (fun e he => hw e (List.mem_cons_of_mem d he)) fun e he => hv e (List.mem_cons_of_mem d he), literalsFit,
      Bool.and_eq_true, FieldsAre]
    exact and_and_and_comm

theorem byte_eq_pattern_iff {v : FieldKind → Byte} {b : Byte} {ds : List Descriptor} (hw : ∀ d ∈ ds, d.wf5 = true)
    (hv : ValuesFit v ds) (h8 : bitCount ds = 8) :
    b = BitVec.ofNat 8 (placed (Descriptor.patternPart v) ds) ↔ literalsFit b ds = true ∧ FieldsAre v b ds := by
  have hlt := patternPart_placed_lt hw hv
  rw [fields_iff_placed hw hv, h8, Nat.mod_eq_of_lt b.isLt, ← BitVec.toNat_inj, BitVec.toNat_ofNat,
    Nat.mod_eq_of_lt (h8 ▸ hlt)]

theorem FieldsAre.congr {v u : FieldKind → Byte} {b : Byte} {ds : List Descriptor} (h : FieldsAre v b ds)
    (huv : ∀ d ∈ ds, d.kind ≠ .lit → v d.kind = u d.kind) : FieldsAre u b ds := by
  induction ds with
  | nil => trivial
  | cons d ds ih =>
    rw [List.forall_mem_cons] at huv
    exact ⟨fun hk hn => (h.1 hk hn).trans (huv.1 hk), ih h.2 huv.2⟩

theorem FieldsAre.of_implied {v : FieldKind → Byte} {b : Byte} {ds : List Descriptor} (h : bitCount ds = 0) :
    FieldsAre v b ds := by
  induction ds with
  | nil => trivial
  | cons d ds ih =>
    rw [bitCount_cons, Nat.add_eq_zero_iff] at h
    exact ⟨fun _ hn => absurd h.1 hn, ih h.2⟩

/-- Values that a byte gives fit. -/
theorem FieldsAre.valuesFit {v : FieldKind → Byte} {b : Byte} {ds : List Descriptor} (h : FieldsAre v b ds) :
    ValuesFit v ds := by
  induction ds with
  | nil => exact fun _ hd => absurd hd List.not_mem_nil
  | cons d ds ih =>
    refine List.forall_mem_cons.mpr ⟨fun hk hn => ?_, ih h.2⟩
    rw [← h.1 hk hn, Descriptor.toNat_valueIn b _ hn]
    exact Nat.mod_lt _ (Nat.two_pow_pos d.n)

/-! ### The map after a byte -/

theorem FieldMap.readByte_of_absent {m : FieldMap} {b : Byte} {ds : List Descriptor} {k : FieldKind}
    (h : ∀ d ∈ ds, d.kind ≠ k) : m.readByte b ds k = m k := by
  induction ds generalizing m with
  | nil => rfl
  | cons d ds ih =>
    rw [List.forall_mem_cons] at h
    rw [FieldMap.readByte, ih h.2, FieldMap.put, if_neg (Ne.symm h.1)]

/-- A field of the byte, or a kind that has its value from before, has its value in the map after the byte. -/
theorem FieldMap.readByte_of_field {m : FieldMap} {v : FieldKind → Byte} {b : Byte} {ds : List Descriptor}
    {k : FieldKind} (hk : k ≠ .lit) (hf : FieldsAre v b ds) (hn : ∀ d ∈ ds, d.kind = k → d.n ≠ 0)
    (hm : m k = some (v k) ∨ ∃ d ∈ ds, d.kind = k) : m.readByte b ds k = some (v k) := by
  induction ds generalizing m with
  | nil => simpa [FieldMap.readByte] using hm
  | cons d ds ih =>
    rw [List.forall_mem_cons] at hn
    refine ih hf.2 hn.2 ?_
    by_cases hd : d.kind = k
    · subst hd
      exact .inl (by rw [FieldMap.put, if_pos rfl, if_neg hk, hf.1 hk (hn.1 rfl)])
    · rw [FieldMap.put, if_neg (Ne.symm hd)]
      exact hm.imp_right fun ⟨e, he, hek⟩ => ⟨e, (List.mem_cons.mp he).resolve_left (by rintro rfl; exact hd hek), hek⟩

/-- Where no kind occurs twice, the byte's fields take the values that stand in the map after it. -/
theorem fieldsAre_readByte {m : FieldMap} {b : Byte} {ds : List Descriptor}
    (h : ds.Pairwise fun d e => d.kind ≠ .lit → e.kind ≠ d.kind) : FieldsAre (m.readByte b ds).val b ds := by
  induction ds generalizing m with
  | nil => trivial
  | cons d ds ih =>
    rw [List.pairwise_cons] at h
    refine ⟨fun hk _ => ?_, ih h.2⟩
    rw [FieldMap.val, FieldMap.readByte, FieldMap.readByte_of_absent fun e he => h.1 e he hk, FieldMap.put, if_pos rfl,
      if_neg hk]
    rfl

/-! ### The descriptor bytes of a row -/

/-- The descriptor bytes of a row whose fields have the values `v`. -/
def RowId.headBytes (r : RowId) (v : FieldKind → Byte) : List Byte :=
  BitVec.ofNat 8 (placed (Descriptor.patternPart v) r.firstFields) ::
    if r.opcodeMask.bytes = 2 then [BitVec.ofNat 8 (placed (Descriptor.patternPart v) r.laterFields)] else []

/-- The row takes the kind from its descriptor bytes. -/
def Row.carries (r : Row) (k : FieldKind) : Bool := r.fields.any fun d => d.kind == k && d.n != 0

theorem RowId.kinds_once (r : RowId) :
    r.row.fields.Pairwise fun d e => d.kind ≠ .lit → e.kind ≠ d.kind := by
  cases r <;> decide

theorem RowId.headBytes_congr {r : RowId} {v u : FieldKind → Byte}
    (h : ∀ d ∈ r.row.fields, d.kind ≠ .lit → d.n ≠ 0 → v d.kind = u d.kind) : r.headBytes v = r.headBytes u := by
  have hpart : ∀ d ∈ r.row.fields, d.patternPart v = d.patternPart u := fun d hd => by
    unfold Descriptor.patternPart
    split
    · rfl
    · split
      · rfl
      · rw [h d hd ‹_› ‹_›]
  rw [← r.firstFields_append_laterFields, List.forall_mem_append] at hpart
  rw [RowId.headBytes, RowId.headBytes, placed_congr hpart.1, placed_congr hpart.2]

/-- A kind that the row takes from its bytes has no implied value besides. -/
theorem RowId.carried_not_implied (r : RowId) :
    ∀ d ∈ r.row.fields, d.kind ≠ .lit → d.n ≠ 0 → ∀ e ∈ r.row.fields, e.kind = d.kind → e.n ≠ 0 := by
  cases r <;> decide

theorem RowId.mapOf_val {r : RowId} {v : FieldKind → Byte} {b c : Byte} (hb : FieldsAre v b r.firstFields)
    (hc : FieldsAre v c r.laterFields) {k : FieldKind} (hk : k ≠ .lit) (hr : r.row.carries k = true) :
    (r.mapOf b c).val k = v k := by
  obtain ⟨d, hd, hdk⟩ := List.any_eq_true.mp hr
  rw [Bool.and_eq_true, beq_iff_eq, bne_iff_ne] at hdk
  obtain ⟨rfl, hn⟩ := hdk
  have hall := r.carried_not_implied d hd hk hn
  rw [← r.firstFields_append_laterFields, List.forall_mem_append] at hall
  rw [← r.firstFields_append_laterFields, List.mem_append] at hd
  have hlater : r.mapOf b c d.kind = some (v d.kind) :=
    FieldMap.readByte_of_field hk hc hall.2 <| hd.imp
      (fun hf => FieldMap.readByte_of_field hk hb hall.1 (.inr ⟨d, hf, rfl⟩)) fun hl => ⟨d, hl, rfl⟩
  rw [FieldMap.val, hlater]
  rfl

/-- EXTRACT takes the values back from the descriptor bytes that were made of them. -/
theorem extract_headBytes {rd : Reader} {cur : Nat} {r : RowId} {v : FieldKind → Byte} (hv : ValuesFit v r.row.fields)
    (h : readerHolds rd cur (r.headBytes v) = true) :
    ∃ m, extract rd cur r.row = .matched (m, cur + (r.headBytes v).length) ∧
      ∀ k, k ≠ .lit → r.row.carries k = true → m.val k = v k := by
  rw [← r.firstFields_append_laterFields, ValuesFit, List.forall_mem_append] at hv
  rw [RowId.headBytes, holds_cons] at h
  obtain ⟨hb, hrest⟩ := h
  generalize hbyte : BitVec.ofNat 8 (placed (Descriptor.patternPart v) r.firstFields) = b at hb
  obtain ⟨hlit, hfields⟩ := (byte_eq_pattern_iff r.firstFields_wf5 hv.1 r.bitCount_firstFields).mp hbyte.symm
  have hfirst := (r.firstFits_eq b).trans hlit
  have hcount := r.bitCount_laterFields
  obtain h1 | h2 := r.opcodeMask_bytes
  · rw [h1] at hcount
    have hlater : FieldsAre v b r.laterFields := FieldsAre.of_implied hcount
    refine ⟨r.mapOf b b, (extract_oneByte hb h1 hfirst).trans ?_, fun k => r.mapOf_val hfields hlater⟩
    rw [RowId.headBytes, h1]
    rfl
  · rw [h2] at hcount
    rw [if_pos h2, holds_cons] at hrest
    obtain ⟨hc, -⟩ := hrest
    generalize hsecond : BitVec.ofNat 8 (placed (Descriptor.patternPart v) r.laterFields) = c at hc
    obtain ⟨hlit2, hfields2⟩ := (byte_eq_pattern_iff r.laterFields_wf5 hv.2 hcount).mp hsecond.symm
    have hfits : r.opcodeMask.fits b c = true := by rw [RowId.fits_eq h2, hlit, hlit2]; rfl
    refine ⟨r.mapOf b c, (extract_of_fits hb hc h2 hfits).trans ?_, fun k => r.mapOf_val hfields hfields2⟩
    rw [RowId.headBytes, if_pos h2]
    rfl

theorem RowId.fieldsAre_mapOf (r : RowId) (b c : Byte) :
    FieldsAre (r.mapOf b c).val b r.firstFields ∧ FieldsAre (r.mapOf b c).val c r.laterFields := by
  have honce := r.kinds_once
  rw [← r.firstFields_append_laterFields, List.pairwise_append] at honce
  obtain ⟨hfirst, hlater, hcross⟩ := honce
  refine ⟨(fieldsAre_readByte (m := FieldMap.blank) hfirst).congr fun d hd hk => ?_, fieldsAre_readByte hlater⟩
  rw [FieldMap.val, FieldMap.val, RowId.mapOf, FieldMap.readByte_of_absent fun e he => hcross d hd e he hk]

/-- The descriptor bytes of a row that EXTRACT matches are made of the values it takes from them. -/
theorem headBytes_of_extract {rd : Reader} {cur pos : Nat} {r : RowId} {m : FieldMap}
    (h : extract rd cur r.row = .matched (m, pos)) :
    readerHolds rd cur (r.headBytes m.val) = true ∧ pos = cur + (r.headBytes m.val).length := by
  obtain ⟨b, hb, hfirst, ⟨h1, hx⟩ | ⟨h2, c, hc, hfits, hx⟩⟩ := extract_matched_cases h
  · cases hx
    have hf := (r.fieldsAre_mapOf b b).1
    have hbyte := (byte_eq_pattern_iff r.firstFields_wf5 hf.valuesFit r.bitCount_firstFields).mpr
      ⟨(r.firstFits_eq b).symm.trans hfirst, hf⟩
    rw [RowId.headBytes, ← hbyte, h1]
    exact ⟨holds_cons.mpr ⟨hb, rfl⟩, rfl⟩
  · cases hx
    obtain ⟨hf, hl⟩ := r.fieldsAre_mapOf b c
    rw [RowId.fits_eq h2, Bool.and_eq_true] at hfits
    have hcount : bitCount r.laterFields = 8 := by rw [r.bitCount_laterFields, h2]
    have hbyte := (byte_eq_pattern_iff r.firstFields_wf5 hf.valuesFit r.bitCount_firstFields).mpr ⟨hfits.1, hf⟩
    have hbyte2 := (byte_eq_pattern_iff r.laterFields_wf5 hl.valuesFit hcount).mpr ⟨hfits.2, hl⟩
    rw [RowId.headBytes, ← hbyte, if_pos h2, ← hbyte2]
    exact ⟨holds_cons.mpr ⟨hb, holds_cons.mpr ⟨hc, rfl⟩⟩, rfl⟩

end Sys2Proof
end

section
/-! An instruction as its row and the values it carries: its encoding is the row's descriptor bytes with these values,
then the displacement, then the data (30_encoding.md rules R61, R65 and R66), and registers that hold these values are
assembled to it. -/

namespace Sys2Proof

open Sys2Proof.Machine

/-! ### What an instruction carries -/

/-- What an instruction carries, by the kinds of its row. A value that its row does not take from its bytes is left at 0
and never looked at, but for the r/m form: it is then the one the row implies, or one that no displacement follows. -/
structure FieldValues where
  d : Bool := false
  s : Bool := false
  w : Bool := false
  reg : Reg3 := 0
  sr : Seg2 := 0
  rm : RmForm := .mem0 0
  data : Option ImmData := none

/-- The value of a kind that a row takes from its bytes (30_encoding.md rule R66). -/
def FieldValues.val (f : FieldValues) : FieldKind → Byte
  | .d => (BitVec.ofBool f.d).setWidth 8
  | .s => (BitVec.ofBool f.s).setWidth 8
  | .w => (BitVec.ofBool f.w).setWidth 8
  | .reg => f.reg.setWidth 8
  | .sr => f.sr.setWidth 8
  | .mod => f.rm.modBits.setWidth 8
  | .rm => f.rm.rmBits.setWidth 8
  | _ => 0

/-- What each instruction carries. -/
def Instr.values : Instr → FieldValues
  | .movRmReg d w reg rm | .addRmReg d w reg rm | .adcRmReg d w reg rm | .subRmReg d w reg rm | .sbbRmReg d w reg rm
  | .cmpRmReg d w reg rm => { d, w, reg, rm }
  | .addRmImm s w rm data | .adcRmImm s w rm data | .subRmImm s w rm data | .sbbRmImm s w rm data
  | .cmpRmImm s w rm data => { s, w, rm, data }
  | .movRmImm w rm data => { w, rm, data }
  | .movRegImm w reg data => { w, reg, data }
  | .addAccImm w data | .adcAccImm w data | .subAccImm w data | .sbbAccImm w data | .cmpAccImm w data => { w, data }
  | .inFixed w port | .outFixed w port => { w, data := some (.byte port) }
  | .movAccMem w addr | .movMemAcc w addr => { w, rm := .direct addr }
  | .inDx w | .outDx w => { w, rm := .reg 2 }
  | .xchgRmReg w reg rm => { w, reg, rm }
  | .incRm w rm | .decRm w rm | .negRm w rm | .mulRm w rm | .imulRm w rm | .divRm w rm | .idivRm w rm => { w, rm }
  | .lea reg rm | .lds reg rm | .les reg rm => { reg, rm }
  | .movSegRm sr rm | .movRmSeg sr rm => { sr, rm }
  | .pushRm rm | .popRm rm => { rm }
  | .pushReg reg | .popReg reg | .incReg reg | .decReg reg => { reg }
  | .xchgAccReg reg => { reg, rm := .reg 0 }
  | .pushSeg sr | .popSeg sr => { sr }
  | .xlat | .lahf | .sahf | .pushf | .popf | .aaa | .daa | .aas | .das | .aam | .aad | .cbw | .cwd => {}

/-- The field map of an instruction: the values its row takes from its bytes, and the implied ones. -/
def Instr.map (i : Instr) : FieldMap := fun k =>
  some (if i.rowId.row.carries k then i.values.val k else BitVec.ofNat 8 (i.rowId.row.impliedValue k))

/-- The bytes after the descriptor bytes: the displacement, then the data (30_encoding.md rule R61). -/
def FieldValues.tailBytes (f : FieldValues) : List Byte := f.rm.dispBytes ++ f.data.elim [] ImmData.bytes

theorem FieldValues.val_lt (f : FieldValues) (k : FieldKind) : (f.val k).toNat < 2 ^ k.width := by
  cases k with
  | d | s | w => exact lt_of_eq_of_lt (BitVec.toNat_setWidth_of_le (by decide)) (BitVec.isLt _)
  | reg | sr | mod | rm => exact lt_of_eq_of_lt (BitVec.toNat_setWidth_of_le (by decide)) (BitVec.isLt _)
  | _ => exact Nat.two_pow_pos _

theorem Descriptor.wf5_field {d : Descriptor} (h : d.wf5 = true) (hk : d.kind ≠ .lit) (hn : d.n ≠ 0) :
    d.n = d.kind.width := by
  rw [Descriptor.wf5, if_neg hk, Bool.or_eq_true, beq_iff_eq, beq_iff_eq] at h
  exact h.resolve_left hn

theorem valuesFit_values (r : RowId) (f : FieldValues) : ValuesFit f.val r.row.fields := fun d hd hk hn => by
  rw [Descriptor.wf5_field (r.row_wf5 d hd) hk hn]
  exact f.val_lt d.kind

theorem toNat_append_eq {n m : Nat} (x : BitVec n) (y : BitVec m) : (x ++ y).toNat = x.toNat * 2 ^ m + y.toNat := by
  rw [BitVec.toNat_append, ← Nat.shiftLeft_add_eq_or_of_lt y.isLt, Nat.shiftLeft_eq]

theorem append_eq_ofNat {n m : Nat} (x : BitVec n) (y : BitVec m) :
    x ++ y = BitVec.ofNat (n + m) (x.toNat * 2 ^ m + y.toNat) := by
  rw [← toNat_append_eq, BitVec.ofNat_toNat, BitVec.setWidth_eq]

/-- The encoding of an instruction is its row's descriptor bytes with its values, then what follows them. -/
theorem encode_eq (i : Instr) : encode i = i.rowId.headBytes i.values.val ++ i.values.tailBytes := by
  cases i <;> simp only [encode, ↓append_eq_ofNat, ↓toNat_append_eq] <;>
    simp [-BitVec.toNat_setWidth, BitVec.toNat_setWidth_of_le, RowId.headBytes, Instr.rowId, RowId.firstFields,
      RowId.laterFields, takeBits, RowId.row, RowId.opcodeMask, Descriptor.literal, Descriptor.field,
      Descriptor.implied, placed, Descriptor.patternPart, Instr.values, FieldValues.val, FieldValues.tailBytes,
      RmForm.dispBytes, ImmData.bytes, Nat.add_mul, Nat.add_assoc, Nat.mul_assoc]

/-- The r/m form an instruction carries is the one its row's `MOD` and `RM` name. -/
theorem Instr.map_modRm (i : Instr) :
    i.map.val .mod = i.values.rm.modBits.setWidth 8 ∧ i.map.val .rm = i.values.rm.rmBits.setWidth 8 := by
  cases i <;> exact ⟨rfl, rfl⟩

theorem Instr.map_hasData (i : Instr) : i.map.hasData = i.values.data.isSome := by
  cases i <;> rfl

@[simp] theorem ofBool_eq_one (w : Bool) : ((BitVec.ofBool w).setWidth 8 == 1#8) = w := by cases w <;> rfl

@[simp] theorem ofBool_eq_zero (s : Bool) : ((BitVec.ofBool s).setWidth 8 == 0#8) = !s := by cases s <;> rfl

/-- An instruction is well-formed iff its r/m form is, and its data have the width that its row's flags give. -/
theorem Instr.wf_eq (i : Instr) :
    i.wf = (i.values.rm.wf && i.values.data.all (ImmData.fits i.map.dataWide)) := by
  cases i <;>
    simp [Instr.wf, Instr.values, FieldMap.dataWide, FieldMap.flag, FieldMap.present, FieldMap.val, Instr.map,
      Instr.rowId, RowId.row, Row.carries, Row.impliedValue, Descriptor.literal, Descriptor.field, Descriptor.implied,
      FieldValues.val, RmForm.wf, ImmData.fits, ImmData.wide]

/-! ### From the registers back to the instruction -/

@[simp] theorem lowByte_dataOf_byte (signed : Bool) (b : Byte) : lowByte (dataOf signed (.byte b)) = b := by
  cases signed
  · exact lowByte_zext16 b
  · exact lowByte_sext16 b

/-- Registers that hold what an instruction carries are assembled to it. -/
theorem assemble_eq {i : Instr} {q : Parsed} (hw : i.values.rm.wf = true)
    (hm : ∀ k, k ≠ .lit → q.map.val k = i.map.val k) (hdisp : q.disp = dispOf i.values.rm)
    (hdata : q.data = i.values.data.elim 0 (dataOf q.map.signExtends))
    (hwide : q.dataWide = i.values.data.elim false ImmData.wide) : assemble i.rowId q = i := by
  have hrm : q.rmForm = i.values.rm :=
    rmForm_form ((hm .mod nofun).trans i.map_modRm.1) ((hm .rm nofun).trans i.map_modRm.2) hdisp hw
  have himm : ∀ x, i.values.data = some x → q.immData = x := fun x hx => by
    rw [hx] at hdata hwide
    exact immData_form hdata hwide
  have hd : q.map.regFirst = (i.map.val .d == 1) := by rw [FieldMap.regFirst, hm .d nofun]
  have hs : q.map.signExtends = (i.map.val .s == 1) := by rw [FieldMap.signExtends, hm .s nofun]
  have hwd : q.map.wide = (i.map.val .w == 1) := by rw [FieldMap.wide, hm .w nofun]
  have hreg : q.regField = (i.map.val .reg).setWidth 3 := by rw [Parsed.regField, hm .reg nofun]
  have hseg : q.segField = (i.map.val .sr).setWidth 2 := by rw [Parsed.segField, hm .sr nofun]
  cases i <;>
    simp [assemble, Instr.rowId, hd, hs, hwd, hreg, hseg, hrm, hdisp, hdata, dispOf, Instr.map, FieldMap.val,
      RowId.row, Row.carries, Descriptor.literal, Descriptor.field, Descriptor.implied, FieldValues.val,
      Instr.values] <;>
    exact himm _ rfl

end Sys2Proof
end

section
/-! The round trip (30_encoding.md rules R58, R61, R65 and R66): a well-formed instruction's encoding decodes to it by
its own row, and so by the table; and what a row decodes to is well-formed, with its encoding in the bytes read. -/

namespace Sys2Proof

open Sys2Proof.Machine

/-! ### Encoded bytes decode -/

theorem FieldMap.flag_eq (m : FieldMap) (k : FieldKind) : m.flag k = (m.val k != 0) := by
  unfold FieldMap.flag FieldMap.present FieldMap.val
  cases m k <;> rfl

/-- An implied descriptor has the value that stands for its kind. -/
theorem RowId.implied_value (r : RowId) :
    ∀ d ∈ r.row.fields, d.n = 0 → d.value = r.row.impliedValue d.kind := by
  cases r <;> decide

theorem Row.impliedValue_of_absent {r : Row} {k : FieldKind} (h : ∀ d ∈ r.fields, d.kind ≠ k) :
    r.impliedValue k = 0 := by
  have hnone : (r.fields.filter fun d => d.kind == k) = [] := by simpa using h
  rw [Row.impliedValue, hnone]
  rfl

/-- The map that EXTRACT leaves of an instruction's row is the instruction's, if the bytes hold its values. -/
theorem extract_map {rd : Reader} {cur pos : Nat} {i : Instr} {m : FieldMap}
    (h : extract rd cur i.rowId.row = .matched (m, pos))
    (hv : ∀ k, k ≠ .lit → i.rowId.row.carries k = true → m.val k = i.values.val k) :
    ∀ k, k ≠ .lit → m.val k = i.map.val k := by
  intro k hk
  show m.val k = if i.rowId.row.carries k then i.values.val k else _
  split
  · exact hv k hk ‹_›
  · rename_i hc
    have himplied : ∀ d ∈ i.rowId.row.fields, d.kind = k → d.n = 0 := by
      simpa [Row.carries] using hc
    refine extract_val_implied h _ hk (fun d hd hdk => ⟨himplied d hd hdk, ?_⟩) Row.impliedValue_of_absent
    rw [i.rowId.implied_value d hd (himplied d hd hdk), hdk]

theorem Instr.hasData_eq {i : Instr} {m : FieldMap} (hm : ∀ k, k ≠ .lit → m.val k = i.map.val k) :
    m.hasData = i.values.data.isSome := by
  rw [← i.map_hasData, FieldMap.hasData, FieldMap.hasData, FieldMap.flag_eq, FieldMap.flag_eq, hm .hasData nofun]

theorem Instr.dataWide_eq {i : Instr} {m : FieldMap} (hm : ∀ k, k ≠ .lit → m.val k = i.map.val k) :
    m.dataWide = i.map.dataWide := by
  rw [FieldMap.dataWide, FieldMap.dataWide, FieldMap.flag_eq, FieldMap.flag_eq, hm .dataWFollowsW nofun, hm .w nofun,
    hm .s nofun]

/-- Step 6 reads the displacement and the data that stand after the descriptor bytes. -/
theorem readTrailing_form {rd : Reader} {m : FieldMap} {p : Nat} {f : FieldValues}
    (hm : m.val .mod = f.rm.modBits.setWidth 8) (hr : m.val .rm = f.rm.rmBits.setWidth 8) (hw : f.rm.wf = true)
    (hh : m.hasData = f.data.isSome) (hd : f.data.all (ImmData.fits m.dataWide) = true)
    (h : readerHolds rd p f.tailBytes = true) :
    readTrailing rd m p =
      .matched ⟨m, dispOf f.rm, f.data.elim 0 (dataOf m.signExtends), f.data.elim false ImmData.wide,
        p + f.tailBytes.length⟩ := by
  obtain ⟨hdisp, hdata⟩ := holds_append.mp h
  rw [readTrailing, readDisp_form hm hr hw hdisp, Attempt.matched_andThen, hh, FieldValues.tailBytes,
    List.length_append, dispBytes_length, ← Nat.add_assoc]
  rw [dispBytes_length] at hdata
  cases hx : f.data with
  | none => rfl
  | some x =>
    rw [hx] at hd hdata
    have hwide : m.dataWide = x.wide := (beq_iff_eq.mp hd).symm
    show (readData rd m (p + f.rm.dispLen)).andThen _ = _
    rw [readData_form hwide hdata, ← dataBytes_length]
    rfl

/-- Where a well-formed instruction's encoding stands, its row gives it back. -/
theorem decodeRow_of_holds {rd : Reader} {cur : Nat} {i : Instr} (hw : i.wf = true)
    (h : readerHolds rd cur (encode i) = true) :
    decodeRow rd cur i.rowId = .matched (i, cur + (encode i).length) := by
  rw [i.wf_eq, Bool.and_eq_true] at hw
  rw [encode_eq, holds_append] at h
  obtain ⟨hhead, htail⟩ := h
  obtain ⟨m, hx, hv⟩ := extract_headBytes (valuesFit_values i.rowId i.values) hhead
  have hm := extract_map hx hv
  have ht := readTrailing_form ((hm .mod nofun).trans i.map_modRm.1) ((hm .rm nofun).trans i.map_modRm.2) hw.1
    (Instr.hasData_eq hm) (Instr.dataWide_eq hm ▸ hw.2) htail
  simp only [decodeRow, parse, hx, ht, Attempt.matched_andThen]
  rw [assemble_eq hw.1 hm rfl rfl rfl, Nat.add_assoc, ← List.length_append, ← encode_eq]

/-! ### Decoded bytes are an encoding -/

/-- What the decoder's registers hold of an instruction. -/
def Parsed.values (p : Parsed) : FieldValues where
  d := p.map.regFirst
  s := p.map.signExtends
  w := p.map.wide
  reg := p.regField
  sr := p.segField
  rm := p.rmForm
  data := if p.map.hasData then some p.immData else none

/-- The row takes this field from its descriptor bytes. -/
def Descriptor.isField (d : Descriptor) : Bool := d.kind != .lit && d.n != 0

theorem assemble_fields (r : RowId) (p : Parsed) :
    (r.row.fields.filter Descriptor.isField).map (fun d => (assemble r p).values.val d.kind) =
      (r.row.fields.filter Descriptor.isField).map fun d => p.values.val d.kind := by
  cases r <;> rfl

/-- What a row takes from its descriptor bytes, the instruction it assembles carries. -/
theorem assemble_carries {r : RowId} {p : Parsed} {d : Descriptor} (hd : d ∈ r.row.fields) (hk : d.kind ≠ .lit)
    (hn : d.n ≠ 0) : (assemble r p).values.val d.kind = p.values.val d.kind :=
  List.map_inj_left.mp (assemble_fields r p) d (List.mem_filter.mpr ⟨hd, by simp [Descriptor.isField, hk, hn]⟩)

theorem assemble_values_rm (r : RowId) (p : Parsed) :
    (assemble r p).values.rm = if r.row.has .rm then r.form p else .mem0 0 := by cases r <;> rfl

theorem assemble_values_data (r : RowId) (p : Parsed) :
    (assemble r p).values.data = if r.row.has .hasData then some (r.imm p) else none := by cases r <;> rfl

/-- A field has a value of its kind's width, whatever the row and the bytes. -/
theorem RowId.fields_narrow (r : RowId) :
    ∀ d ∈ r.row.fields, d.kind.width ≠ 0 → d.n ≤ d.kind.width ∧ d.value < 2 ^ d.kind.width := by
  cases r <;> decide

theorem extract_val_lt {rd : Reader} {cur pos : Nat} {r : RowId} {m : FieldMap}
    (h : extract rd cur r.row = .matched (m, pos)) {k : FieldKind} (hk : k.width ≠ 0) :
    (m.val k).toNat < 2 ^ k.width := by
  have hlit : k ≠ .lit := fun he => hk (congrArg FieldKind.width he)
  refine extract_val (P := fun v => v.toNat < 2 ^ k.width) h hlit (fun d hd hdk v hv => ?_)
    fun _ => Nat.two_pow_pos _
  subst hdk
  obtain ⟨hn, hvalue⟩ := r.fields_narrow d hd hk
  unfold Descriptor.Allows at hv
  split at hv
  · rw [hv, BitVec.toNat_ofNat]
    exact lt_of_le_of_lt (Nat.mod_le _ _) hvalue
  · exact lt_of_lt_of_le hv (Nat.pow_le_pow_right (by omega) hn)

theorem ofBool_beq_one {v : Byte} (h : v.toNat < 2) : (BitVec.ofBool (v == 1)).setWidth 8 = v := by
  have : v.toNat = 0 ∨ v.toNat = 1 := by omega
  obtain rfl | rfl : v = 0 ∨ v = 1 := by simpa [← BitVec.toNat_inj] using this
  · rfl
  · rfl

theorem setWidth_setWidth_of_lt {v : Byte} {n : Nat} (h : v.toNat < 2 ^ n) : (v.setWidth n).setWidth 8 = v := by
  rw [← BitVec.toNat_inj, BitVec.toNat_setWidth, BitVec.toNat_setWidth, Nat.mod_eq_of_lt h, Nat.mod_eq_of_lt v.isLt]

/-- The r/m form has the `MOD` and `RM` it was made of. -/
theorem Parsed.rmForm_bits {p : Parsed} (hmod : (p.map.val .mod).toNat < 4) (hrm : (p.map.val .rm).toNat < 8) :
    p.rmForm.modBits.setWidth 8 = p.map.val .mod ∧ p.rmForm.rmBits.setWidth 8 = p.map.val .rm := by
  have hback : ((p.map.val .rm).setWidth 3).setWidth 8 = p.map.val .rm := setWidth_setWidth_of_lt hrm
  unfold Parsed.rmForm FieldMap.direct
  obtain hv | hv | hv | hv := mod_cases hmod
  · by_cases h6 : p.map.val .rm = 6#8
    · simp [hv, h6, RmForm.modBits, RmForm.rmBits]
    · simp [hv, h6, RmForm.modBits, RmForm.rmBits, hback]
  all_goals simp [hv, RmForm.modBits, RmForm.rmBits, hback]

/-- The r/m form is one an encoding has. -/
theorem Parsed.rmForm_wf {p : Parsed} (hrm : (p.map.val .rm).toNat < 8) : p.rmForm.wf = true := by
  have hback : ((p.map.val .rm).setWidth 3).setWidth 8 = p.map.val .rm := setWidth_setWidth_of_lt hrm
  unfold Parsed.rmForm
  split
  · rfl
  · split
    · rfl
    · rename_i hdirect
      split
      · rename_i h0
        refine bne_iff_ne.mpr fun h6 => hdirect ?_
        rw [h6] at hback
        rw [FieldMap.direct, h0, ← hback]
        rfl
      · split <;> rfl

/-- The registers hold the values of the map, where each is of its kind's width. -/
theorem Parsed.values_val {p : Parsed} (h : ∀ k : FieldKind, k.width ≠ 0 → (p.map.val k).toNat < 2 ^ k.width)
    {k : FieldKind} (hk : k.width ≠ 0) : p.values.val k = p.map.val k := by
  obtain ⟨hmod, hrm⟩ := Parsed.rmForm_bits (h .mod (by decide)) (h .rm (by decide))
  cases k with
  | mod => exact hmod
  | rm => exact hrm
  | d | s | w => exact ofBool_beq_one (h _ hk)
  | reg | sr => exact setWidth_setWidth_of_lt (h _ hk)
  | _ => exact absurd rfl hk

/-! ### The bytes that step 6 has read -/

theorem holds_of_memRead1 {rd : Reader} {a : Nat} {b : Byte} (h : memRead1 rd a = .matched b) :
    readerHolds rd a [b] = true := holds_cons.mpr ⟨memRead1_eq_matched.mp h, rfl⟩

theorem wordBytes_wordOfBytes (lo hi : Byte) : wordBytes (wordOfBytes lo hi) = [lo, hi] := by
  have hlo : lowByte (wordOfBytes lo hi) = lo := BitVec.setWidth_append_eq_right
  have hhi : highByte (wordOfBytes lo hi) = hi := BitVec.extractLsb'_append_eq_left
  rw [wordBytes, hlo, hhi]

theorem holds_of_memRead2 {rd : Reader} {a : Nat} {v : Word} (h : memRead2 rd a = .matched v) :
    readerHolds rd a (wordBytes v) = true := by
  obtain ⟨lo, hlo, h⟩ := Attempt.andThen_eq_matched.mp h
  obtain ⟨hi, hhi, h⟩ := Attempt.andThen_eq_matched.mp h
  cases h
  rw [wordBytes_wordOfBytes]
  exact holds_cons.mpr ⟨memRead1_eq_matched.mp hlo, holds_of_memRead1 hhi⟩

/-- What was read as displacement stands there as the displacement of the r/m form. -/
theorem holds_of_readDisp {rd : Reader} {m : FieldMap} {pos stop : Nat} {p : Parsed} (hm : p.map = m)
    (hmod : (m.val .mod).toNat < 4)
    (h : (if m.hasDisp then readDisp rd m pos else .matched (0, pos)) = .matched (p.disp, stop)) :
    readerHolds rd pos p.rmForm.dispBytes = true := by
  subst hm
  have hword : p.map.hasDisp = true → p.map.dispWide = true → readerHolds rd pos (wordBytes p.disp) = true := by
    intro hd hw
    rw [if_pos hd, readDisp, if_pos hw] at h
    obtain ⟨v, hv, h⟩ := Attempt.andThen_eq_matched.mp h
    cases h
    exact holds_of_memRead2 hv
  have hbyte : p.map.hasDisp = true → p.map.dispWide = false → readerHolds rd pos [lowByte p.disp] = true := by
    intro hd hw
    rw [if_pos hd, readDisp, hw, if_neg Bool.false_ne_true] at h
    obtain ⟨b, hb, h⟩ := Attempt.andThen_eq_matched.mp h
    obtain ⟨hdisp, -⟩ := Prod.mk.inj (Attempt.matched.inj h)
    rw [← hdisp, lowByte_sext16]
    exact holds_of_memRead1 hb
  unfold FieldMap.hasDisp FieldMap.dispWide FieldMap.direct at hword hbyte
  unfold Parsed.rmForm FieldMap.direct
  obtain hv | hv | hv | hv := mod_cases hmod
  · by_cases h6 : p.map.val .rm = 6#8
    · simp [hv, h6] at hword
      simp [hv, h6, RmForm.dispBytes, hword]
    · simp [hv, h6, RmForm.dispBytes, readerHolds]
  · simp [hv] at hbyte
    simp [hv, RmForm.dispBytes, hbyte]
  · simp [hv] at hword
    simp [hv, RmForm.dispBytes, hword]
  · simp [hv, RmForm.dispBytes, readerHolds]

/-- What was read as data stands there as the immediate. -/
theorem holds_of_readData {rd : Reader} {m : FieldMap} {pos stop : Nat} {p : Parsed}
    (h : readData rd m pos = .matched (p.data, p.dataWide, stop)) : readerHolds rd pos p.immData.bytes = true := by
  unfold readData at h
  split at h
  · obtain ⟨v, hv, h⟩ := Attempt.andThen_eq_matched.mp h
    simp only [Attempt.matched.injEq, Prod.mk.injEq] at h
    obtain ⟨hdata, hwide, -⟩ := h
    rw [Parsed.immData, ← hwide, if_pos rfl, ← hdata]
    exact holds_of_memRead2 hv
  · obtain ⟨b, hb, h⟩ := Attempt.andThen_eq_matched.mp h
    simp only [Attempt.matched.injEq, Prod.mk.injEq] at h
    obtain ⟨hdata, hwide, -⟩ := h
    rw [Parsed.immData, ← hwide, if_neg Bool.false_ne_true, ← hdata]
    have hlow := lowByte_dataOf_byte m.signExtends b
    rw [dataOf] at hlow
    rw [hlow]
    exact holds_of_memRead1 hb

/-- What step 6 read stands after the descriptor bytes. -/
theorem holds_of_readTrailing {rd : Reader} {m : FieldMap} {pos : Nat} {p : Parsed}
    (h : readTrailing rd m pos = .matched p) (hmod : (m.val .mod).toNat < 4) :
    readerHolds rd pos p.values.tailBytes = true := by
  obtain ⟨⟨disp, q⟩, hdisp, h⟩ := Attempt.andThen_eq_matched.mp h
  obtain ⟨⟨data, wide, stop⟩, hdata, h⟩ := Attempt.andThen_eq_matched.mp h
  cases h
  refine holds_append.mpr ⟨holds_of_readDisp rfl hmod hdisp, ?_⟩
  obtain ⟨-, rfl⟩ := readDisp_matched hdisp
  rw [dispBytes_length]
  have hlen := rmForm_dispLen (p := ⟨m, disp, data, wide, stop⟩) hmod
  unfold Parsed.values
  rw [hlen]
  split
  · rename_i hd
    rw [if_pos hd] at hdata
    exact holds_of_readData hdata
  · rfl

/-! ### What a row assembles -/

section
variable {r : RowId} {cur : Nat} {p : Parsed} (h : r.Parses cur p)
include h

theorem RowId.Parses.assemble_rm : (assemble r p).values.rm = p.rmForm := by
  rw [assemble_values_rm]
  split
  · exact h.form_eq.symm
  · rename_i hr
    obtain ⟨hm, hrm⟩ := r.noRm_fixed (Bool.eq_false_iff.mpr hr)
    simp [Parsed.rmForm, FieldMap.direct, h.fixed .mod 0 (by decide) hm, h.fixed .rm 0 (by decide) hrm]

theorem RowId.Parses.assemble_data :
    (assemble r p).values.data = if p.map.hasData then some p.immData else none := by
  rw [assemble_values_data, ← h.hasData_eq]
  split
  · rename_i hd
    rw [h.imm_eq hd]
  · rfl

theorem RowId.Parses.immData_wide (hd : p.map.hasData = true) : p.immData.wide = p.map.dataWide := by
  obtain ⟨hw, -⟩ := h.data hd
  rw [Parsed.immData, hw]
  cases p.map.dataWide <;> rfl

end

/-- What a row decodes to is well-formed, and its encoding stands where it was read. -/
theorem encoding_of_decodeRow {rd : Reader} {cur stop : Nat} {r : RowId} {i : Instr}
    (h : decodeRow rd cur r = .matched (i, stop)) : i.wf = true ∧ readerHolds rd cur (encode i) = true := by
  obtain ⟨p, hp, hi⟩ := Attempt.andThen_eq_matched.mp h
  cases hi
  have hparses := RowId.parses_of_parse hp
  obtain ⟨⟨m, pos⟩, hx, ht⟩ := Attempt.andThen_eq_matched.mp hp
  obtain ⟨rfl, -⟩ := readTrailing_matched ht
  have hlt : ∀ k : FieldKind, k.width ≠ 0 → (p.map.val k).toNat < 2 ^ k.width := fun k => extract_val_lt hx
  have hval : ∀ d ∈ r.row.fields, d.kind ≠ .lit → d.n ≠ 0 → (assemble r p).values.val d.kind = p.map.val d.kind := by
    intro d hd hk hn
    rw [assemble_carries hd hk hn]
    exact Parsed.values_val hlt (Descriptor.wf5_field (r.row_wf5 d hd) hk hn ▸ hn)
  constructor
  · have hmap : ∀ k, k ≠ .lit → p.map.val k = (assemble r p).map.val k := by
      refine extract_map (by rw [assemble_rowId]; exact hx) fun k hk hc => ?_
      rw [assemble_rowId] at hc
      obtain ⟨d, hd, hdk⟩ := List.any_eq_true.mp hc
      rw [Bool.and_eq_true, beq_iff_eq, bne_iff_ne] at hdk
      obtain ⟨rfl, hn⟩ := hdk
      exact (hval d hd hk hn).symm
    rw [Instr.wf_eq, hparses.assemble_rm, hparses.assemble_data, Parsed.rmForm_wf (hlt .rm (by decide)), Bool.true_and,
      ← Instr.dataWide_eq hmap]
    split
    · rename_i hd
      exact beq_iff_eq.mpr (hparses.immData_wide hd)
    · rfl
  · obtain ⟨hhead, rfl⟩ := headBytes_of_extract hx
    have htail : (assemble r p).values.tailBytes = p.values.tailBytes := by
      rw [FieldValues.tailBytes, FieldValues.tailBytes, hparses.assemble_rm, hparses.assemble_data]
      rfl
    rw [encode_eq, assemble_rowId, RowId.headBytes_congr hval, htail, holds_append]
    exact ⟨hhead, holds_of_readTrailing ht (hlt .mod (by decide))⟩

/-! ### The input as a list -/

theorem listReader_eq_byte {bytes : List Byte} {a : Nat} {b : Byte} :
    listReader bytes a = .byte b ↔ bytes[a]? = some b := by
  unfold listReader
  cases bytes[a]? <;> simp

/-- The bytes that stand from an offset of a list on are those its rest begins with. -/
theorem holds_listReader {bytes bs : List Byte} {a : Nat} :
    readerHolds (listReader bytes) a bs = true ↔ bs <+: bytes.drop a := by
  induction bs generalizing a with
  | nil => simp [readerHolds]
  | cons b bs ih =>
    rw [holds_cons, ih, listReader_eq_byte, ← List.head?_drop, ← List.tail_drop]
    cases bytes.drop a with
    | nil => simp
    | cons x rest => simp [List.cons_prefix_cons, eq_comm]

/-- Bytes that begin with a well-formed instruction's encoding decode to it. -/
theorem decode_of_prefix {bytes : List Byte} {i : Instr} (hw : i.wf = true) (h : encode i <+: bytes) :
    decode bytes = .matched (i, (encode i).length) := by
  have hrow := decodeRow_of_holds (rd := listReader bytes) (cur := 0) hw (holds_listReader.mpr h)
  rw [decode, decodeAt_eq_decodeRow (by rw [hrow]; nofun), hrow, Nat.zero_add]

end Sys2Proof

namespace Sys2Proof.Machine

/-- Settles O23: the row of the instruction takes its values back from its encoding, and no other row matches. -/
theorem decodeInvertsEncode : Obligations.DecodeInvertsEncode := fun _ rest hw =>
  decode_of_prefix hw (List.prefix_append _ rest)

/-- Settles O24: what the row has read is the encoding of what it assembles, and by O23 the lengths agree. -/
theorem encodeInvertsDecode : Obligations.EncodeInvertsDecode := by
  intro bytes i n h
  obtain ⟨r, -, hr⟩ := firstAttempt_mem (decodeRow (listReader bytes) 0) RowId.all
    (by rw [← decodeAt, ← decode, h]; nofun)
  obtain ⟨hw, hholds⟩ := encoding_of_decodeRow (hr.symm.trans h)
  have hprefix : encode i <+: bytes := holds_listReader.mp hholds
  cases (decode_of_prefix hw hprefix).symm.trans h
  exact ⟨hw, rfl, List.prefix_iff_eq_take.mp hprefix⟩

/-- Settles O36: each word is the encoding of the instruction the spec says it is, and so decodes to it (O23). -/
theorem wordsOfTheSpecDecode : Obligations.WordsOfTheSpecDecode :=
  ⟨decode_of_prefix (i := .movRmReg false true 3 (.reg 0)) rfl (by decide),
    decode_of_prefix (i := .movRmReg true true 5 (.direct 0x0027)) rfl (by decide),
    decode_of_prefix (i := .movRmImm true (.mem16 6 0x0010) (.word 0x1234)) rfl (by decide),
    decode_of_prefix (i := .addRmImm true true (.mem8 6 0) (.byte 0xFF)) rfl (by decide),
    decode_of_prefix (i := .outFixed false 0x2C) rfl (by decide),
    decode_of_prefix (i := .idivRm true (.mem8 6 0xFE)) rfl (by decide),
    decode_of_prefix (i := .aad) rfl (by decide)⟩

end Sys2Proof.Machine
end

section
/-! The table: WF4 as a condition on running sums (30_encoding.md rule R50), the ROM image read back (rules R44 to R46),
and each check of WF1 to WF8 as the condition on the table that its rule states (rules R47 to R54, 60_exceptions.md rule
R212). -/

namespace Sys2Proof

open Sys2Proof.Machine

/-! ### WF4 -/

/-- Every way of picking a descriptor of a row picks the first, or one of the others. -/
theorem forall_split_cons {P : List Descriptor → Descriptor → Prop} {d : Descriptor} {ds : List Descriptor} :
    (∀ before e after, d :: ds = before ++ e :: after → P before e) ↔
      P [] d ∧ ∀ before e after, ds = before ++ e :: after → P (d :: before) e := by
  constructor
  · exact fun h => ⟨h [] d ds rfl, fun before e after hs => h (d :: before) e after (congrArg (d :: ·) hs)⟩
  · rintro ⟨hd, hds⟩ before e after hs
    cases before with
    | nil => cases hs; exact hd
    | cons c before => cases hs; exact hds before e after rfl

/-- With `t` bits before them, descriptors fill whole bytes iff none that takes bits has its first and its last bit in
different bytes, and the total is whole bytes. -/
theorem fieldsFillBytes_iff {ds : List Descriptor} {t : Nat} :
    fieldsFillBytes (t % 8) ds = true ↔
      (∀ before d after, ds = before ++ d :: after → 0 < d.n →
        (t + bitCount before) / 8 = (t + bitCount before + d.n - 1) / 8) ∧ (t + bitCount ds) % 8 = 0 := by
  induction ds generalizing t with
  | nil => simp [fieldsFillBytes]
  | cons d ds ih =>
    have hhead : t % 8 + d.n ≤ 8 ↔ (0 < d.n → (t + bitCount []) / 8 = (t + bitCount [] + d.n - 1) / 8) := by
      rw [bitCount_nil]
      omega
    rw [fieldsFillBytes, Bool.and_eq_true, decide_eq_true_eq, Nat.mod_add_mod, ih, hhead, forall_split_cons, and_assoc]
    simp only [bitCount_cons, Nat.add_assoc]

theorem Row.wf4_iff (r : Row) :
    r.wf4 = true ↔
      (∀ before d after, r.fields = before ++ d :: after → 0 < d.n →
        bitCount before / 8 = (bitCount before + d.n - 1) / 8) ∧ bitCount r.fields % 8 = 0 := by
  simpa [Row.wf4] using fieldsFillBytes_iff (ds := r.fields) (t := 0)

/-! ### The ROM image -/

theorem FieldKind.code_lt (k : FieldKind) : k.code < 16 := by cases k <;> decide

theorem FieldKind.not_reserved {k : FieldKind} (h : k.code ≤ 13) : k ≠ .reserved14 ∧ k ≠ .reserved15 := by
  constructor <;> rintro rfl <;> exact absurd h (by decide)

theorem FieldKind.ofCode_code (k : FieldKind) : FieldKind.ofCode (BitVec.ofNat 4 k.code) = k := by cases k <;> rfl

theorem Tag.code_lt (t : Tag) : t.code < 256 := by
  cases t with
  | unassigned n => exact Nat.add_lt_add_left n.isLt 35
  | _ => decide

theorem Tag.ofCode_code (t : Tag) : Tag.ofCode (BitVec.ofNat 8 t.code) = t := by
  cases t with
  | unassigned n =>
    have hcode : (BitVec.ofNat 8 (Tag.unassigned n).code).toNat = 35 + n := by
      rw [BitVec.toNat_ofNat, Nat.mod_eq_of_lt (Tag.code_lt _), Tag.code]
    rw [Tag.ofCode, List.getD_eq_default _ _ (by rw [hcode]; exact Nat.le_add_right 35 n)]
    simp only [hcode, Nat.add_sub_cancel_left]
  | _ => rfl

theorem Descriptor.wf3_iff {d : Descriptor} :
    d.wf3 = true ↔ d.kind.code ≤ 13 ∧ d.n ≤ 8 ∧ d.value < 256 := by
  have hkind : (d.kind != .reserved14 && d.kind != .reserved15) = decide (d.kind.code ≤ 13) := by
    cases d.kind <;> decide
  rw [Descriptor.wf3, hkind]
  simp [and_assoc]

theorem Descriptor.toNat_toWord {d : Descriptor} (h : d.wf3 = true) :
    d.toWord.toNat = d.kind.code * 4096 + d.n * 256 + d.value := by
  obtain ⟨-, hn, hvalue⟩ := Descriptor.wf3_iff.mp h
  have hk := d.kind.code_lt
  rw [Descriptor.toWord, toNat_append_eq, toNat_append_eq, BitVec.toNat_ofNat, BitVec.toNat_ofNat, BitVec.toNat_ofNat]
  omega

theorem Descriptor.ofWord_toWord {d : Descriptor} (h : d.wf3 = true) : Descriptor.ofWord d.toWord = d := by
  obtain ⟨-, hn, hvalue⟩ := Descriptor.wf3_iff.mp h
  have hkind : d.toWord.extractLsb' 12 4 = BitVec.ofNat 4 d.kind.code := by
    rw [Descriptor.toWord, BitVec.extractLsb'_append_eq_of_le (by decide)]
    exact BitVec.extractLsb'_append_eq_left
  have hbits : d.toWord.extractLsb' 8 4 = BitVec.ofNat 4 d.n := by
    rw [Descriptor.toWord, BitVec.extractLsb'_append_eq_of_le (by decide)]
    exact BitVec.extractLsb'_append_eq_right
  have hval : d.toWord.extractLsb' 0 8 = BitVec.ofNat 8 d.value := BitVec.extractLsb'_append_eq_right
  rw [Descriptor.ofWord, hkind, hbits, hval, FieldKind.ofCode_code, BitVec.toNat_ofNat, BitVec.toNat_ofNat,
    Nat.mod_eq_of_lt (by omega), Nat.mod_eq_of_lt (by omega)]

/-- The fields of a row are ones its ROM words can hold. -/
def Row.InRange (r : Row) : Prop := r.fields.length < 256 ∧ r.fields.all Descriptor.wf3 = true

theorem Row.InRange.ofWord_toWord {r : Row} (h : r.InRange) :
    (r.fields.map Descriptor.toWord).map Descriptor.ofWord = r.fields := by
  rw [List.map_map]
  exact (List.map_congr_left fun d hd => Descriptor.ofWord_toWord (List.all_eq_true.mp h.2 d hd)).trans (List.map_id _)

/-- Reading back a ROM image of rows in range, with fuel for every row. -/
theorem tableOfRomFuel_tableToRom {t : List Row} {fuel : Nat} (h : ∀ r ∈ t, r.InRange) (hf : t.length ≤ fuel) :
    tableOfRomFuel fuel (tableToRom t) = some t := by
  induction t generalizing fuel with
  | nil => cases fuel <;> rfl
  | cons r t ih =>
    cases fuel with
    | zero => cases hf
    | succ fuel =>
      rw [List.forall_mem_cons] at h
      have hcount : ((BitVec.ofNat 8 r.tag.code ++ BitVec.ofNat 8 r.fields.length).extractLsb' 0 8).toNat =
          (r.fields.map Descriptor.toWord).length := by
        rw [BitVec.extractLsb'_append_eq_right, BitVec.toNat_ofNat, Nat.mod_eq_of_lt h.1.1, List.length_map]
      have htag : (BitVec.ofNat 8 r.tag.code ++ BitVec.ofNat 8 r.fields.length).extractLsb' 8 8 =
          BitVec.ofNat 8 r.tag.code := BitVec.extractLsb'_append_eq_left
      have hrom : tableToRom (r :: t) =
          (BitVec.ofNat 8 r.tag.code ++ BitVec.ofNat 8 r.fields.length) ::
            (r.fields.map Descriptor.toWord ++ tableToRom t) := rfl
      rw [hrom, tableOfRomFuel, hcount, htag, Tag.ofCode_code, List.take_left, List.drop_left,
        h.1.ofWord_toWord, ih h.2 (Nat.le_of_succ_le_succ hf), if_neg (by simp)]
      rfl

theorem length_le_tableToRom (t : List Row) : t.length ≤ (tableToRom t).length := by
  induction t with
  | nil => exact le_rfl
  | cons r t ih =>
    simp only [tableToRom, List.flatMap_cons, List.length_append, Row.toRom, List.length_cons] at ih ⊢
    omega

end Sys2Proof

namespace Sys2Proof.Machine

/-- Settles O30: with no bit before it, a row's descriptors fill whole bytes (`fieldsFillBytes_iff`). -/
theorem fieldsPartitionWholeBytes : Obligations.FieldsPartitionWholeBytes := Row.wf4_iff

/-- Settles O31: the words' parts are concatenated, so they are taken apart again, row by row. -/
theorem romImageHoldsTheTable : Obligations.RomImageHoldsTheTable := by
  refine ⟨fun d => Descriptor.toNat_toWord, rfl, rfl, fun r hr => ⟨_, rfl, ?_⟩, fun t ht => ?_⟩
  · have := r.tag.code_lt
    rw [toNat_append_eq, BitVec.toNat_ofNat, BitVec.toNat_ofNat]
    omega
  · exact tableOfRomFuel_tableToRom ht (length_le_tableToRom t)

end Sys2Proof.Machine
end

section
/-! WF1 to WF8 (30_encoding.md rules R47 to R54): the model's check of a table fails iff the table breaks the rule's own
condition, and an ill-formed table is refused at every operation (60_exceptions.md rule R212). -/

namespace Sys2Proof

open Sys2Proof.Machine

/-! ### The checks in their order -/

/-- Whether a table passes one of the checks. -/
def WfCheck.passes (maxFields : Nat) (t : List Row) : WfCheck → Bool
  | .wf1 => t.all Row.wf1
  | .wf2 => t.all (Row.wf2 maxFields)
  | .wf3 => t.all fun r => r.fields.all Descriptor.wf3
  | .wf4 => t.all Row.wf4
  | .wf5 => t.all fun r => r.fields.all Descriptor.wf5
  | .wf6 => t.all Row.wf6
  | .wf7 => t.all fun r => r.fields.all Descriptor.wf7
  | .wf8 => tableWf8 t

/-- The checks in the order in which they are made. -/
def WfCheck.all : List WfCheck := [.wf1, .wf2, .wf3, .wf4, .wf5, .wf6, .wf7, .wf8]

theorem WfCheck.mem_all (c : WfCheck) : c ∈ WfCheck.all := by cases c <;> decide

theorem find?_cons_eq_ite {α : Type} (p : α → Bool) (a : α) (l : List α) :
    (a :: l).find? p = if p a then some a else l.find? p := by
  rw [List.find?_cons]
  cases p a <;> rfl

section
variable {maxFields : Nat} {t : List Row}

theorem tableRefusedBy_eq_find? :
    tableRefusedBy maxFields t = WfCheck.all.find? fun c => !WfCheck.passes maxFields t c := by
  simp only [WfCheck.all, find?_cons_eq_ite, List.find?_nil]
  rfl

/-- A table is refused iff it does not pass every check. -/
theorem tableRefusedBy_eq_none_iff :
    tableRefusedBy maxFields t = none ↔ ∀ c, WfCheck.passes maxFields t c = true := by
  rw [tableRefusedBy_eq_find?, List.find?_eq_none]
  simp [WfCheck.mem_all]

theorem not_passes_of_refusedBy {c : WfCheck} (h : tableRefusedBy maxFields t = some c) :
    WfCheck.passes maxFields t c = false := by
  rw [tableRefusedBy_eq_find?] at h
  simpa using List.find?_some h

/-- WF7 is looked at in tables that pass WF3 and WF5. -/
theorem passes_of_refusedBy_wf7 (h : tableRefusedBy maxFields t = some .wf7) :
    WfCheck.passes maxFields t .wf3 = true ∧ WfCheck.passes maxFields t .wf5 = true := by
  rw [tableRefusedBy_eq_find?, List.find?_eq_some_iff_getElem] at h
  obtain ⟨-, i, hi, hc, hbefore⟩ := h
  have hplace : ∀ (j : Nat) (hj : j < 8), WfCheck.all[j] = .wf7 → j = 6 := by decide
  obtain rfl := hplace i hi hc
  exact ⟨(Bool.not_not _).symm.trans (hbefore 2 (by decide)), (Bool.not_not _).symm.trans (hbefore 4 (by decide))⟩

/-! ### Each check, failed -/

theorem Row.wf1_eq_false_iff {r : Row} :
    r.wf1 = false ↔ ∀ d rest, r.fields = d :: rest → d.kind ≠ .lit ∨ d.n = 0 := by
  unfold Row.wf1
  cases r.fields with
  | nil => simp
  | cons d ds =>
    rw [Bool.and_eq_false_iff, beq_eq_false_iff_ne, decide_eq_false_iff_not, Nat.not_le, Nat.lt_one_iff]
    exact ⟨fun h e rest hs => by cases hs; exact h, fun h => h d ds rfl⟩

theorem Row.wf2_eq_false_iff {r : Row} :
    r.wf2 maxFields = false ↔ r.fields.length = 0 ∨ maxFields < r.fields.length := by
  rw [Row.wf2, Bool.and_eq_false_iff, decide_eq_false_iff_not, decide_eq_false_iff_not]
  omega

theorem Descriptor.wf3_eq_false_iff {d : Descriptor} :
    d.wf3 = false ↔ 13 < d.kind.code ∨ 8 < d.n ∨ 256 ≤ d.value := by
  rw [← Bool.not_eq_true, Descriptor.wf3_iff]
  omega

/-- The kinds with bits of their own, with their number. -/
theorem width_iff {k : FieldKind} {n : Nat} (hk : k ≠ .lit) (hn : 0 < n) :
    (k, n) ∈ [(FieldKind.mod, 2), (.reg, 3), (.rm, 3), (.d, 1), (.w, 1), (.s, 1), (.sr, 2)] ↔ n = k.width := by
  cases k with
  | lit => exact absurd rfl hk
  | _ => simp [FieldKind.width] <;> omega

theorem Descriptor.wf5_eq_false_iff {d : Descriptor} :
    d.wf5 = false ↔
      (d.kind = .lit ∧ (d.n = 0 ∨ 2 ^ d.n ≤ d.value)) ∨
      (d.kind ≠ .lit ∧ 0 < d.n ∧
        (d.kind, d.n) ∉ [(FieldKind.mod, 2), (.reg, 3), (.rm, 3), (.d, 1), (.w, 1), (.s, 1), (.sr, 2)]) := by
  unfold Descriptor.wf5
  by_cases hk : d.kind = .lit
  · simp [hk, imp_iff_not_or]
  · simp only [hk, if_false, Bool.or_eq_false_iff, beq_eq_false_iff_ne, ne_eq, false_and, false_or, not_false_eq_true,
      true_and]
    by_cases hn : d.n = 0
    · simp [hn]
    · rw [width_iff hk (by omega)]
      simp [hn, Nat.pos_of_ne_zero hn]

theorem pair_sublist_iff {d e : Descriptor} {l : List Descriptor} :
    [d, e].Sublist l ↔ ∃ before between after, l = before ++ d :: between ++ e :: after := by
  constructor
  · intro h
    obtain ⟨front, back, rfl, hd, he⟩ := List.cons_sublist_iff.mp h
    obtain ⟨before, gap, rfl⟩ := List.append_of_mem hd
    obtain ⟨gap', after, rfl⟩ := List.append_of_mem (List.singleton_sublist.mp he)
    exact ⟨before, gap ++ gap', after, by simp⟩
  · rintro ⟨before, between, after, rfl⟩
    exact List.cons_sublist_iff.mpr ⟨before ++ d :: between, e :: after, rfl, by simp, by simp⟩

/-- WF6 as a condition on any two descriptors of the row. -/
theorem Row.wf6_iff {r : Row} :
    r.wf6 = true ↔
      ∀ d e, [d, e].Sublist r.fields → d.kind ≠ .lit → 0 < d.n → e.kind = d.kind → ¬ 0 < e.n := by
  rw [Row.wf6, decide_eq_true_iff, List.Nodup, List.pairwise_map, List.pairwise_filter,
    List.pairwise_iff_forall_sublist]
  simp only [Bool.and_eq_true, bne_iff_ne, decide_eq_true_eq]
  constructor
  · intro h d e hs hk hd he hn
    exact h hs ⟨hk, hd⟩ ⟨he ▸ hk, hn⟩ he.symm
  · intro h d e hs hd he hke
    exact h d e hs hd.1 hd.2 hke.symm he.2

theorem Row.wf6_eq_false_iff {r : Row} :
    r.wf6 = false ↔ ∃ before d between e after, r.fields = before ++ d :: between ++ e :: after ∧
      d.kind ≠ .lit ∧ e.kind = d.kind ∧ 0 < d.n ∧ 0 < e.n := by
  rw [← Bool.not_eq_true, Row.wf6_iff]
  push Not
  constructor
  · rintro ⟨d, e, hs, hk, hd, he, hn⟩
    obtain ⟨before, between, after, hr⟩ := pair_sublist_iff.mp hs
    exact ⟨before, d, between, e, after, hr, hk, he, hd, hn⟩
  · rintro ⟨before, d, between, e, after, hr, hk, he, hd, hn⟩
    exact ⟨d, e, pair_sublist_iff.mpr ⟨before, between, after, hr⟩, hk, hd, he, hn⟩

/-- The kinds an implied descriptor can have in a table that passes WF3 and WF5, with their greatest values. -/
theorem maxImplied_iff {k : FieldKind} {greatest : Nat} :
    (k, greatest) ∈
        [(FieldKind.mod, 3), (.reg, 7), (.rm, 7), (.d, 1), (.w, 1), (.s, 1), (.sr, 3), (.dispWFlag, 1), (.hasData, 1),
         (.dataWFollowsW, 1), (.rmAlwaysW, 1), (.disp, 0), (.data, 0)] ↔
      k ≠ .lit ∧ k ≠ .reserved14 ∧ k ≠ .reserved15 ∧ greatest = k.maxImplied := by
  cases k <;> simp [FieldKind.maxImplied]

theorem Descriptor.wf7_eq_false_iff {d : Descriptor} : d.wf7 = false ↔ d.n = 0 ∧ d.kind.maxImplied < d.value := by
  simp [Descriptor.wf7]

theorem tableWf8_eq_false_iff :
    tableWf8 t = false ↔ t = [] ∨ ∃ r ∈ t, r.tag.code < 1 ∨ 34 < r.tag.code := by
  simp only [tableWf8, Bool.and_eq_false_iff, Bool.not_eq_false', List.isEmpty_iff, List.all_eq_false, Bool.and_eq_true,
    decide_eq_true_eq, not_and_or, Nat.not_le]

theorem all_fields_eq_false_iff {p : Descriptor → Bool} :
    (t.all fun r => r.fields.all p) = false ↔ ∃ r ∈ t, ∃ d ∈ r.fields, p d = false := by
  simp

theorem all_eq_false_iff {p : Row → Bool} : t.all p = false ↔ ∃ r ∈ t, p r = false := by simp

end

end Sys2Proof

namespace Sys2Proof.Machine

/-! ### The model's check and the rules' conditions -/

section
variable {maxFields : Nat} {t : List Row}

/-- The check that the model names is one that the table breaks. -/
theorem tableFails_of_refusedBy {c : WfCheck} (h : tableRefusedBy maxFields t = some c) : TableFails maxFields t c := by
  have hc := not_passes_of_refusedBy h
  cases c with
  | wf1 =>
    obtain ⟨r, hr, hf⟩ := all_eq_false_iff.mp hc
    exact .wf1 r hr (Row.wf1_eq_false_iff.mp hf)
  | wf2 =>
    obtain ⟨r, hr, hf⟩ := all_eq_false_iff.mp hc
    exact .wf2 r hr (Row.wf2_eq_false_iff.mp hf)
  | wf3 =>
    obtain ⟨r, hr, d, hd, hf⟩ := all_fields_eq_false_iff.mp hc
    exact .wf3 r d hr hd (Descriptor.wf3_eq_false_iff.mp hf)
  | wf4 =>
    obtain ⟨r, hr, hf⟩ := all_eq_false_iff.mp hc
    rw [← Bool.not_eq_true, Row.wf4_iff] at hf
    by_cases htotal : bitCount r.fields % 8 = 0
    · obtain ⟨before, d, after, hs, hn, hne⟩ : ∃ before d after, r.fields = before ++ d :: after ∧ 0 < d.n ∧
          bitCount before / 8 ≠ (bitCount before + d.n - 1) / 8 := by
        by_contra hno
        push Not at hno
        exact hf ⟨hno, htotal⟩
      exact .wf4Straddle r before d after hr hs hn hne
    · exact .wf4Total r hr htotal
  | wf5 =>
    obtain ⟨r, hr, d, hd, hf⟩ := all_fields_eq_false_iff.mp hc
    obtain ⟨hk, hf⟩ | ⟨hk, hn, hf⟩ := Descriptor.wf5_eq_false_iff.mp hf
    · exact .wf5Literal r d hr hd hk hf
    · exact .wf5Field r d hr hd hk hn hf
  | wf6 =>
    obtain ⟨r, hr, hf⟩ := all_eq_false_iff.mp hc
    obtain ⟨before, d, between, e, after, hs, hk, he, hd, hn⟩ := Row.wf6_eq_false_iff.mp hf
    exact .wf6 r before d between e after hr hs hk he hd hn
  | wf7 =>
    obtain ⟨h3, h5⟩ := passes_of_refusedBy_wf7 h
    obtain ⟨r, hr, d, hd, hf⟩ := all_fields_eq_false_iff.mp hc
    obtain ⟨hn, hlt⟩ := Descriptor.wf7_eq_false_iff.mp hf
    have hd3 := List.all_eq_true.mp (List.all_eq_true.mp h3 r hr) d hd
    have hd5 := List.all_eq_true.mp (List.all_eq_true.mp h5 r hr) d hd
    have hlit : d.kind ≠ .lit := fun hk => (Descriptor.wf5_literal hd5 hk).1 hn
    obtain ⟨h14, h15⟩ := FieldKind.not_reserved (Descriptor.wf3_iff.mp hd3).1
    exact .wf7 r d _ hr hd hn (maxImplied_iff.mpr ⟨hlit, h14, h15, rfl⟩) hlt
  | wf8 =>
    obtain hempty | ⟨r, hr, hf⟩ := tableWf8_eq_false_iff.mp hc
    · exact .wf8Empty hempty
    · exact .wf8Tag r hr hf

/-- A table that breaks a rule's condition does not pass its check. -/
theorem not_passes_of_tableFails {c : WfCheck} (h : TableFails maxFields t c) :
    WfCheck.passes maxFields t c = false := by
  cases h with
  | wf1 r hr hf => exact all_eq_false_iff.mpr ⟨r, hr, Row.wf1_eq_false_iff.mpr hf⟩
  | wf2 r hr hf => exact all_eq_false_iff.mpr ⟨r, hr, Row.wf2_eq_false_iff.mpr hf⟩
  | wf3 r d hr hd hf => exact all_fields_eq_false_iff.mpr ⟨r, hr, d, hd, Descriptor.wf3_eq_false_iff.mpr hf⟩
  | wf4Straddle r before d after hr hs hn hne =>
    refine all_eq_false_iff.mpr ⟨r, hr, ?_⟩
    rw [← Bool.not_eq_true, Row.wf4_iff]
    exact fun hall => hne (hall.1 before d after hs hn)
  | wf4Total r hr hf =>
    refine all_eq_false_iff.mpr ⟨r, hr, ?_⟩
    rw [← Bool.not_eq_true, Row.wf4_iff]
    exact fun hall => hf hall.2
  | wf5Literal r d hr hd hk hf =>
    exact all_fields_eq_false_iff.mpr ⟨r, hr, d, hd, Descriptor.wf5_eq_false_iff.mpr (.inl ⟨hk, hf⟩)⟩
  | wf5Field r d hr hd hk hn hf =>
    exact all_fields_eq_false_iff.mpr ⟨r, hr, d, hd, Descriptor.wf5_eq_false_iff.mpr (.inr ⟨hk, hn, hf⟩)⟩
  | wf6 r before d between e after hr hs hk he hd hn =>
    exact all_eq_false_iff.mpr
      ⟨r, hr, Row.wf6_eq_false_iff.mpr ⟨before, d, between, e, after, hs, hk, he, hd, hn⟩⟩
  | wf7 r d greatest hr hd hn hk hf =>
    obtain ⟨-, -, -, rfl⟩ := maxImplied_iff.mp hk
    exact all_fields_eq_false_iff.mpr ⟨r, hr, d, hd, Descriptor.wf7_eq_false_iff.mpr ⟨hn, hf⟩⟩
  | wf8Empty hf => exact tableWf8_eq_false_iff.mpr (.inl hf)
  | wf8Tag r hr hf => exact tableWf8_eq_false_iff.mpr (.inr ⟨r, hr, hf⟩)

/-- The table is refused iff it breaks a rule's condition. -/
theorem tableRefusedBy_eq_none_iff_no_fail : tableRefusedBy maxFields t = none ↔ ¬ ∃ c, TableFails maxFields t c := by
  constructor
  · rintro h ⟨c, hc⟩
    exact Bool.false_ne_true ((not_passes_of_tableFails hc).symm.trans (tableRefusedBy_eq_none_iff.mp h c))
  · intro h
    cases hr : tableRefusedBy maxFields t with
    | none => rfl
    | some c => exact absurd ⟨c, tableFails_of_refusedBy hr⟩ h

end

theorem tableAccepted_iff {p : Params} :
    p.tableAccepted = true ↔ ¬ ∃ c, TableFails p.maxFields p.formatTable c := by
  rw [Params.tableAccepted, Option.isNone_iff_eq_none, tableRefusedBy_eq_none_iff_no_fail]

/-! ### What is answered to an operation -/

theorem stepOf_perform {p : Params} {s : State} {op : HostOp} {rest : List HostOp} (ho : s.ops = op :: rest) :
    stepOf p s = Driver.performOf p op s := by
  simp only [stepOf, Driver.stepWith, ho]

theorem stepOf_refused {p : Params} {s : State} {op : HostOp} {rest : List HostOp} (ho : s.ops = op :: rest)
    (h : p.tableAccepted = false) : stepOf p s = .next { s with ops := rest, replies := s.replies ++ [.refused] } := by
  rw [stepOf_perform ho]
  unfold Driver.performOf
  rw [h, if_neg Bool.false_ne_true, State.answer, State.hear, ho]
  rfl

/-- A NEXT that goes on adds a reply to NEXT, if its commit does. -/
theorem nextWith_reply {α : Type} {scan : State → Attempt α} {commit : α → State → Result} {s t : State}
    (hc : ∀ a t, commit a s = .next t → ∃ r, t.replies = s.replies ++ [.next r])
    (h : Driver.nextWith scan commit s = .next t) : ∃ r, t.replies = s.replies ++ [.next r] := by
  unfold Driver.nextWith Driver.nextNoMatch at h
  split_ifs at h
  · cases h; exact ⟨_, rfl⟩
  · cases h; exact ⟨_, rfl⟩
  · split at h
    · exact hc _ _ h
    · split at h <;> cases h <;> exact ⟨_, rfl⟩
    · cases h; exact ⟨_, rfl⟩
    · cases h

/-- A TRY that goes on adds a reply to TRY, if its commit does. -/
theorem tryWith_reply {α : Type} {attempt : State → Option (Attempt α)} {commit : α → State → Result} {s t : State}
    (hc : ∀ a t, commit a s = .next t → ∃ r, t.replies = s.replies ++ [.tried r])
    (h : Driver.tryWith attempt commit s = .next t) : ∃ r, t.replies = s.replies ++ [.tried r] := by
  unfold Driver.tryWith at h
  split at h
  · split_ifs at h <;> cases h <;> exact ⟨_, rfl⟩
  · split_ifs at h
    · cases h; exact ⟨_, rfl⟩
    · split at h
      · exact hc _ _ h
      · cases h; exact ⟨_, rfl⟩
      · cases h; exact ⟨_, rfl⟩
      · cases h

/-- With its table accepted, an operation is answered with a reply that is not `REFUSED` for the table. -/
theorem stepOf_accepted_reply {p : Params} {s t : State} {op : HostOp} {rest : List HostOp} (ho : s.ops = op :: rest)
    (hp : p.tableAccepted = true) (h : stepOf p s = .next t) : ∃ r, t.replies = s.replies ++ [r] ∧ r ≠ .refused := by
  have hhead : s.ops.head? = some op := by rw [ho]; rfl
  rw [stepOf_perform ho] at h
  unfold Driver.performOf at h
  rw [if_pos hp] at h
  cases op with
  | load bytes | reset | status => cases h; exact ⟨_, rfl, nofun⟩
  | next =>
    obtain ⟨r, hr⟩ := nextWith_reply (fun a u hu => by
      rw [Driver.commitCore, complete_next hhead] at hu
      cases hu
      exact ⟨_, rfl⟩) h
    exact ⟨_, hr, nofun⟩
  | tryRow k =>
    obtain ⟨r, hr⟩ := tryWith_reply (fun a u hu => by
      rw [Driver.commitCore, complete_try hhead] at hu
      cases hu
      exact ⟨_, rfl⟩) h
    exact ⟨_, hr, nofun⟩

/-- Settles O29: the model's check fails iff the table breaks a rule's condition, so the first operation shows which. -/
theorem illFormedTableIsRefused : Obligations.IllFormedTableIsRefused := by
  refine ⟨fun p s op rest ho => ⟨fun hfail => ?_, fun c => tableFails_of_refusedBy, fun hok => ?_⟩, fun c hc => ?_,
    rfl, rfl, rfl, by decide⟩
  · exact stepOf_refused ho (Bool.eq_false_iff.mpr fun h => tableAccepted_iff.mp h hfail)
  · have hp := tableAccepted_iff.mpr hok
    refine ⟨fun t ht => ?_, fun hreset => ?_⟩
    · obtain ⟨r, hr, hne⟩ := stepOf_accepted_reply ho hp ht
      rw [hr]
      exact append_reply_ne hne
    · subst hreset
      exact ⟨_, by rw [stepOf_perform ho, Driver.performOf, if_pos hp]; rfl, rfl⟩
  · exact tableAccepted_iff.mp refParams_accepted ⟨c, hc⟩

end Sys2Proof.Machine
end

section
/-! PROOFS of the statements of 40_operand_model.md: equality under a rule (R81 to R87) is identity of what the rule
compares, and the text of an operand shows no more than that (44_rendering.md rule R138). -/

namespace Sys2Proof

/-- The bits of an immediate's value that a rule compares (40_operand_model.md rule R85): by BYTE_TRUNCATED only the low
byte of a narrow one, all 16 otherwise. -/
def ImmEq.compared (mode : ImmEq) (v : Word) (wide : Bool) : Word :=
  match mode, wide with
  | .byteTruncated, false => zext16 (lowByte v)
  | .byteTruncated, true => v
  | .full16, _ => v

theorem zext16_inj {a b : Byte} : zext16 a = zext16 b ↔ a = b :=
  (Function.LeftInverse.injective lowByte_zext16).eq_iff

theorem lowByte_eq_iff {x y : Word} : lowByte x = lowByte y ↔ x.toNat % 256 = y.toNat % 256 := by
  rw [← BitVec.toNat_inj, lowByte, lowByte, BitVec.toNat_setWidth, BitVec.toNat_setWidth]

theorem compared_byteTruncated_eq_iff {x y : Word} {wide : Bool} :
    ImmEq.byteTruncated.compared x wide = ImmEq.byteTruncated.compared y wide ↔
      (wide = true → x = y) ∧ (wide = false → x.toNat % 256 = y.toNat % 256) := by
  cases wide with
  | true => simp [ImmEq.compared]
  | false => simp [ImmEq.compared, zext16_inj, lowByte_eq_iff]

end Sys2Proof

namespace Sys2Proof.Machine

/-! ### Equality, kind by kind -/

/-- An operand with only what a rule compares of it (40_operand_model.md rules R81 to R85). -/
def Operand.canonical (mode : ImmEq) : Operand → Operand
  | .imm v wide => .imm (mode.compared v wide) wide
  | .none => .none
  | .reg i wide => .reg i wide
  | .seg i => .seg i
  | .mem ea disp => .mem ea disp

theorem eqBy_imm_iff {mode : ImmEq} {x y : Word} {v w : Bool} :
    (Operand.imm x v).eqBy mode (.imm y w) = true ↔ v = w ∧ mode.compared x v = mode.compared y w := by
  simp only [Operand.eqBy, Bool.and_eq_true, beq_iff_eq]
  refine and_congr_right fun hvw => ?_
  subst hvw
  cases mode <;> cases v <;> simp [ImmEq.compared, zext16_inj]

theorem exists_imm_of_eqBy {mode : ImmEq} {x : Word} {v : Bool} {b : Operand}
    (h : (Operand.imm x v).eqBy mode b = true) : ∃ y w, b = .imm y w := by
  cases b with
  | imm y w => exact ⟨y, w, rfl⟩
  | _ => cases h

/-- An operand that is no immediate is equal to itself alone, under either rule. -/
theorem eqBy_iff_eq {mode : ImmEq} {a b : Operand} (ha : ∀ x v, a ≠ .imm x v) : a.eqBy mode b = true ↔ a = b := by
  cases a with
  | imm x v => exact absurd rfl (ha x v)
  | _ => cases b <;> simp [Operand.eqBy]

theorem Operand.eqBy_iff_canonical {mode : ImmEq} {a b : Operand} :
    a.eqBy mode b = true ↔ a.canonical mode = b.canonical mode := by
  cases a with
  | imm x v =>
    cases b with
    | imm y w => simp [eqBy_imm_iff, canonical, and_comm]
    | _ => simp [eqBy, canonical]
  | _ => cases b <;> simp [eqBy, canonical]

theorem Decoded.eqBy_iff {mode : ImmEq} {i j : Decoded} :
    i.eqBy mode j = true ↔
      i.tag = j.tag ∧ i.slot0.eqBy mode j.slot0 = true ∧ i.slot1.eqBy mode j.slot1 = true := by
  rw [Decoded.eqBy, Bool.and_eq_true, Bool.and_eq_true, beq_iff_eq, and_assoc]

/-- Settles O46: an immediate is equal by the bits compared of it, any other operand to itself alone. -/
theorem equalityByKindAndFields : Obligations.EqualityByKindAndFields := by
  refine ⟨rfl, fun x y v w => ⟨?_, eqBy_imm_iff⟩, fun mode => ⟨fun i j v w => ?_, fun i j => ?_, fun e f c d => ?_, rfl,
    fun a b h ha => (eqBy_iff_eq ha).mp h, fun b x v => exists_imm_of_eqBy, fun i j => Decoded.eqBy_iff⟩⟩
  · rw [eqBy_imm_iff]
    refine and_congr_right fun hvw => ?_
    subst hvw
    exact compared_byteTruncated_eq_iff
  · simp [eqBy_iff_eq]
  · simp [eqBy_iff_eq]
  · simp [eqBy_iff_eq]

/-! ### Equality is an equivalence -/

/-- An instruction with only what a rule compares of it (40_operand_model.md rule R86). -/
def Decoded.canonical (mode : ImmEq) (i : Decoded) : Decoded :=
  ⟨i.tag, i.slot0.canonical mode, i.slot1.canonical mode⟩

theorem Decoded.eqBy_iff_canonical {mode : ImmEq} {i j : Decoded} :
    i.eqBy mode j = true ↔ i.canonical mode = j.canonical mode := by
  simp only [Decoded.eqBy_iff, Operand.eqBy_iff_canonical, canonical, Decoded.mk.injEq]

/-- Settles O45: equality is identity of the canonical forms, and identity is an equivalence. -/
theorem equalityIsAnEquivalence : Obligations.EqualityIsAnEquivalence := by
  intro mode
  simp only [Operand.eqBy_iff_canonical, Decoded.eqBy_iff_canonical]
  exact ⟨fun _ => trivial, fun _ _ => Eq.symm, fun _ _ _ => Eq.trans, fun _ => trivial, fun _ _ => Eq.symm,
    fun _ _ _ => Eq.trans⟩

/-! ### The text of equal operands -/

/-- Of a narrow immediate the text shows the low byte alone (44_rendering.md rule R138). -/
theorem immText_compared (v : Word) (wide : Bool) :
    immText (ImmEq.byteTruncated.compared v wide) wide = immText v wide := by
  cases wide with
  | true => rfl
  | false => simp [immText, ImmEq.compared]

theorem operandText_canonical (t : Tag) (w : Bool) (a : Operand) :
    operandText t w (a.canonical .byteTruncated) = operandText t w a := by
  cases a with
  | imm v wide => exact congrArg some (immText_compared v wide)
  | _ => rfl

theorem instrText_canonical (i : Decoded) (w : Bool) : instrText (i.canonical .byteTruncated) w = instrText i w := by
  simp only [instrText, Decoded.canonical, operandText_canonical]

/-- Settles O47: equal instructions have one canonical form, which renders as each of them does. -/
theorem equalInstructionsRenderTheSame : Obligations.EqualInstructionsRenderTheSame := by
  intro i j w h
  calc instrText i w = instrText (i.canonical .byteTruncated) w := (instrText_canonical i w).symm
    _ = instrText (j.canonical .byteTruncated) w := by rw [Decoded.eqBy_iff_canonical.mp h]
    _ = instrText j w := instrText_canonical j w

end Sys2Proof.Machine
end

section
/-! PROOFS of the statements of 41_extraction_engine.md: the bits a descriptor takes (R92), where a match of a row that
passes WF4 ends (R96), and implied descriptors (R93, R95). -/

namespace Sys2Proof

/-! ### The top bits -/

/-- The engine takes the bits that a descriptor of `n` bits has in the current byte, and for `n = 0` takes none. -/
theorem Engine.toNat_topBits (e : Engine) (n : Nat) :
    (e.topBits n).toNat = e.byte.toNat / 2 ^ (e.bits - n) % 2 ^ n := by
  by_cases hn : n = 0
  · simp [hn, Engine.topBits, Nat.mod_one]
  · have hv : e.topBits n = (Descriptor.literal n 0).valueIn e.byte (e.bits - n) := (if_neg hn).symm
    rw [hv, Descriptor.toNat_valueIn _ _ hn]
    rfl

/-! ### Implied descriptors -/

theorem FieldMap.put_same (m : FieldMap) (k : FieldKind) (v : Byte) : m.put k v k = some v := if_pos rfl

theorem FieldMap.put_of_ne (m : FieldMap) {j k : FieldKind} (h : j ≠ k) (v : Byte) : m.put k v j = m j := if_neg h

theorem FieldMap.put_put (m : FieldMap) (k : FieldKind) (u v : Byte) : (m.put k u).put k v = m.put k v := by
  funext j
  by_cases hj : j = k
  · rw [hj, put_same, put_same]
  · rw [put_of_ne _ hj, put_of_ne _ hj, put_of_ne _ hj]

/-- An implied descriptor changes the map at its kind and nothing else of the engine (rule R93). -/
theorem Engine.descriptor_implied (rd : Reader) (e : Engine) {k : FieldKind} (hk : k ≠ .lit) (v : Nat) :
    e.descriptor rd (.implied k v) = .matched { e with map := e.map.put k (BitVec.ofNat 8 v) } := by
  have hn : e.descriptor rd (.implied k v) = e.accept (.implied k v) (BitVec.ofNat 8 v) := if_pos rfl
  rw [hn]
  exact if_neg hk

/-- Of two implied descriptors for one kind the later alone shows (rule R95). -/
theorem Engine.descriptors_implied_twice (rd : Reader) (e : Engine) {k : FieldKind} (hk : k ≠ .lit) (v w : Nat) :
    Engine.descriptors rd [.implied k v, .implied k w] e =
      .matched { e with map := e.map.put k (BitVec.ofNat 8 w) } := by
  simp only [Engine.descriptors, Engine.descriptor_implied rd _ hk, Attempt.matched_andThen, FieldMap.put_put]

end Sys2Proof

namespace Sys2Proof.Machine

/-- Settles O38: shifting and masking the byte is dividing by `2 ^ (E_BITS - n)` and keeping `n` bits. -/
theorem topBitsOfTheByte : Obligations.TopBitsOfTheByte :=
  fun e n _ _ => ⟨e.toNat_topBits n, rfl⟩

/-- Settles O39: by WF4 the descriptors end at a byte boundary, and EXTRACT gives their map and the offset there. -/
theorem extractConsumesWholeBytes : Obligations.ExtractConsumesWholeBytes := by
  intro row rd cur e hw h
  have hx : extract rd cur row = .matched (e.map, e.pos) := by rw [extract, h, Attempt.matched_andThen]
  have hbits : e.bits = 0 := (Engine.descriptors_bits h hw (by decide) (by simp [Engine.start]) rfl).1
  exact ⟨hbits, extract_pos hx hw, hx⟩

/-- Settles O40: one implied descriptor, and two of one kind, put the value that is last into the map at their kind. -/
theorem impliedDescriptorStoresItsValue : Obligations.ImpliedDescriptorStoresItsValue := by
  intro rd e k v w hk
  have hput (u : Byte) : e.map.put k u k = some u ∧ ∀ j, j ≠ k → e.map.put k u j = e.map j :=
    ⟨e.map.put_same k u, fun _ hj => e.map.put_of_ne hj u⟩
  constructor
  · exact ⟨_, Engine.descriptor_implied rd e hk v, (hput _).1, (hput _).2, rfl, rfl, rfl⟩
  · exact ⟨_, Engine.descriptors_implied_twice rd e hk v w, (hput _).1, (hput _).2, rfl, rfl, rfl⟩

end Sys2Proof.Machine
end

section
/-! PROOFS of the statements of 42_decoder.md about steps 2 to 10: the sizes and the values of the displacement and of
the data (R102 to R107), the operands' places (R108 to R113), and the symmetry of the direction bit (R114). -/

namespace Sys2Proof

open Sys2Proof.Machine

/-! ### What the field map says -/

theorem FieldMap.direct_iff {m : FieldMap} : m.direct = true ↔ m.val .mod = 0 ∧ m.val .rm = 6 := by
  simp [FieldMap.direct]

theorem FieldMap.hasDisp_iff {m : FieldMap} :
    m.hasDisp = true ↔ m.val .mod = 1 ∨ m.val .mod = 2 ∨ m.direct = true := by
  simp [FieldMap.hasDisp, or_assoc]

theorem FieldMap.dispWide_iff {m : FieldMap} : m.dispWide = true ↔ m.val .mod = 2 ∨ m.direct = true := by
  simp [FieldMap.dispWide]

/-- A flag is set iff its kind is present with a value that is not 0 (rule R101). -/
theorem FieldMap.flag_iff {m : FieldMap} {k : FieldKind} : m.flag k = true ↔ ∃ v, m k = some v ∧ v ≠ 0 := by
  unfold FieldMap.flag FieldMap.present FieldMap.val
  cases m k <;> simp

theorem FieldMap.dataWide_iff {m : FieldMap} :
    m.dataWide = true ↔ (∃ v, m .dataWFollowsW = some v ∧ v ≠ 0) ∧ m.val .w = 1 ∧ m.val .s = 0 := by
  simp only [FieldMap.dataWide, Bool.and_eq_true, FieldMap.flag_iff, beq_iff_eq, and_assoc]

/-- Data of a row with `S = 1` are one byte. -/
theorem FieldMap.dataWide_of_signed {m : FieldMap} (hs : m.val .s = 1) : m.dataWide = false := by
  simp [FieldMap.dataWide, hs]

/-! ### The bytes that step 6 reads -/

section
variable {rd : Reader} {m : FieldMap} {p : Nat}

theorem readDisp_narrow {b : Byte} (hw : m.dispWide = false) (hb : rd p = .byte b) :
    readDisp rd m p = .matched (sext16 b, p + 1) := by
  rw [readDisp, hw, memRead1_of_byte hb]
  rfl

theorem readDisp_wide {lo hi : Byte} (hw : m.dispWide = true) (hlo : rd p = .byte lo) (hhi : rd (p + 1) = .byte hi) :
    readDisp rd m p = .matched (wordOfBytes lo hi, p + 2) := by
  rw [readDisp, hw, memRead2_of_bytes hlo hhi]
  rfl

theorem readDisp_of_first_pastEnd (h : rd p = .pastEnd) : readDisp rd m p = .truncated p := by
  rw [readDisp, memRead1_of_pastEnd h, memRead2_of_first_pastEnd h]
  split <;> rfl

theorem readDisp_of_second_pastEnd {lo : Byte} (hw : m.dispWide = true) (hlo : rd p = .byte lo)
    (h : rd (p + 1) = .pastEnd) : readDisp rd m p = .truncated (p + 1) := by
  rw [readDisp, hw, memRead2_of_second_pastEnd hlo h]
  rfl

theorem readData_narrow {b : Byte} (hw : m.dataWide = false) (hb : rd p = .byte b) :
    readData rd m p = .matched (if m.signExtends then sext16 b else zext16 b, false, p + 1) := by
  rw [readData, hw, memRead1_of_byte hb]
  rfl

theorem readData_wide {lo hi : Byte} (hw : m.dataWide = true) (hlo : rd p = .byte lo) (hhi : rd (p + 1) = .byte hi) :
    readData rd m p = .matched (wordOfBytes lo hi, true, p + 2) := by
  rw [readData, hw, memRead2_of_bytes hlo hhi]
  rfl

theorem readData_of_first_pastEnd (h : rd p = .pastEnd) : readData rd m p = .truncated p := by
  rw [readData, memRead1_of_pastEnd h, memRead2_of_first_pastEnd h]
  split <;> rfl

theorem readData_of_second_pastEnd {lo : Byte} (hw : m.dataWide = true) (hlo : rd p = .byte lo)
    (h : rd (p + 1) = .pastEnd) : readData rd m p = .truncated (p + 1) := by
  rw [readData, hw, memRead2_of_second_pastEnd hlo h]
  rfl

end

theorem toInt_sext16 (b : Byte) : (sext16 b).toInt = b.toInt := BitVec.toInt_signExtend_of_le (by decide)

theorem toNat_zext16 (b : Byte) : (zext16 b).toNat = b.toNat := BitVec.toNat_setWidth_of_le (by decide)

/-! ### An instruction's meaning and TRY_CORE of its encoding -/

/-- Completions that are the same in every state answer the same instruction. -/
theorem complete_decoded_inj {d e : Decoded} {w v : Bool} {len len' row row' : Nat}
    (h : ∀ s, complete d w len row s = complete e v len' row' s) : d = e := by
  have hs := h (State.reset.issue .next)
  rw [complete_next rfl, complete_next rfl] at hs
  cases congrArg State.replies (Host.Outcome.next.inj hs)
  rfl

/-- Where a well-formed instruction's encoding stands, TRY_CORE of its row answers what the instruction's meaning
completes with. -/
theorem tryCore_of_holds {rd : Reader} {cur : Nat} {i : Instr} (hw : i.wf = true)
    (h : readerHolds rd cur (encode i) = true) :
    ∃ m len, tryCore rd cur i.rowId.row = .matched m ∧
      ∀ s, exec i s = complete m.instr m.w len i.rowId.index s := by
  obtain ⟨p, hp, hi⟩ := Attempt.andThen_eq_matched.mp (decodeRow_of_holds hw h)
  rw [Attempt.matched.injEq, Prod.mk.injEq] at hi
  have hparses := RowId.parses_of_parse hp
  refine ⟨finishCore i.rowId.row.tag p, i.rowId.length p, by rw [tryCore, hp]; rfl, fun s => ?_⟩
  have hwide : (finishCore i.rowId.row.tag p).w = i.rowId.bit p .w := hparses.bit_eq (by decide)
  calc exec i s = exec (assemble i.rowId p) s := by rw [hi.1]
    _ = _ := by rw [exec_assemble, hparses.finishCore_instr, hwide]

end Sys2Proof

namespace Sys2Proof.Machine

/-! ### The displacement and the data -/

/-- Settles O41: the sizes are the field map's, and each read is the one that the size names. -/
theorem displacementByModAndRm : Obligations.DisplacementByModAndRm := fun _ _ _ =>
  ⟨FieldMap.direct_iff, FieldMap.hasDisp_iff, FieldMap.dispWide_iff,
    fun hw b hb => ⟨_, toInt_sext16 b, readDisp_narrow hw hb⟩,
    fun hw lo hi hlo hhi => ⟨_, toNat_wordOfBytes lo hi, readDisp_wide hw hlo hhi⟩,
    readDisp_of_first_pastEnd, fun hw _ => readDisp_of_second_pastEnd hw⟩

/-- Settles O42: the sizes are the field map's, each read is the one that the size names, and `S` says how a narrow datum
is extended; `S = 1` makes the datum narrow. -/
theorem dataByWidthAndSign : Obligations.DataByWidthAndSign := by
  intro rd m p
  refine ⟨FieldMap.flag_iff, FieldMap.dataWide_iff,
    fun hw lo hi hlo hhi => ⟨_, toNat_wordOfBytes lo hi, readData_wide hw hlo hhi⟩, fun hs b hb => ?_,
    fun hw hs b hb => ?_, readData_of_first_pastEnd, fun hw _ => readData_of_second_pastEnd hw⟩
  · have hsigned : m.signExtends = true := by rw [FieldMap.signExtends, hs]; rfl
    exact ⟨sext16 b, toInt_sext16 b, by rw [readData_narrow (FieldMap.dataWide_of_signed hs) hb, if_pos hsigned]⟩
  · have hsigned : ¬ m.signExtends = true := by rw [FieldMap.signExtends, hs]; decide
    exact ⟨zext16 b, toNat_zext16 b, by rw [readData_narrow hw hb, if_neg hsigned]⟩

/-! ### The operands' places -/

/-- The direction bit of a field map decides the slots (rule R108). -/
theorem slotsByD_regFirst (tag : Tag) (m : FieldMap) (regLike modLike : Operand) :
    slotsByD tag m.regFirst regLike modLike =
      if m.val .d = 1 then ⟨tag, regLike, modLike⟩ else ⟨tag, modLike, regLike⟩ := by
  simp only [slotsByD, FieldMap.regFirst, beq_iff_eq]

/-- Settles O43: with an operand, the two places are by `D` and data stand for the one that is missing
(`finishCore_operands`); with none, data are in slot 0. -/
theorem slotsByDirection : Obligations.SlotsByDirection := by
  intro tag p
  refine ⟨rfl, rfl, fun r m hr hm => ?_, fun r hr hm => ?_, fun m hr hm => ?_, fun hr hm => finishCore_noOperands hr hm⟩
  all_goals
    rw [finishCore_operands (by simp [hr, hm]), slotsByD_regFirst, hr, hm]
    rfl

/-! ### The direction bit -/

/-- The rows with a direction bit and both register fields, as the instructions they make (rule R114). -/
def directionRows : List (Bool → Bool → Reg3 → RmForm → Instr) :=
  [.movRmReg, .addRmReg, .adcRmReg, .subRmReg, .sbbRmReg, .cmpRmReg]

theorem directionRows_wf :
    ∀ make ∈ directionRows, ∀ (d w : Bool) (a b : Reg3), (make d w a (.reg b)).wf = true := by
  simp only [directionRows, List.forall_mem_cons]
  exact ⟨fun _ _ _ _ => rfl, fun _ _ _ _ => rfl, fun _ _ _ _ => rfl, fun _ _ _ _ => rfl, fun _ _ _ _ => rfl,
    fun _ _ _ _ => rfl, nofun⟩

/-- With `D = 0`, and with `D = 1` and the registers exchanged, the slots are the same, and so is the meaning. -/
theorem exec_registers_exchanged :
    ∀ make ∈ directionRows, ∀ (w : Bool) (a b : Reg3),
      exec (make false w a (.reg b)) = exec (make true w b (.reg a)) := by
  simp only [directionRows, List.forall_mem_cons]
  exact ⟨fun _ _ _ => rfl, fun _ _ _ => rfl, fun _ _ _ => rfl, fun _ _ _ => rfl, fun _ _ _ => rfl, fun _ _ _ => rfl,
    nofun⟩

/-- Settles O44: each encoding is answered with what its instruction's meaning completes with (`tryCore_of_holds`), and
the two meanings are one (`exec_registers_exchanged`). -/
theorem directionBitSymmetry : Obligations.DirectionBitSymmetry := by
  intro make hmake w a b rd rd' cur cur' h h'
  obtain ⟨m, len, hm, he⟩ := tryCore_of_holds (directionRows_wf make hmake false w a b) h
  obtain ⟨m', len', hm', he'⟩ := tryCore_of_holds (directionRows_wf make hmake true w b a) h'
  have hmeaning := exec_registers_exchanged make hmake w a b
  exact ⟨m, m', hm, hm', complete_decoded_inj fun s => (he s).symm.trans ((congrFun hmeaning s).trans (he' s))⟩

end Sys2Proof.Machine
end

section
/-! PROOFS of the statements of 42_decoder.md about the operation TRY (R116), and that a step runs the decoded
instruction. -/

namespace Sys2Proof.Machine

/-! ### TRY over any attempt: an equation per outcome -/

section
variable {α : Type} {attempt : State → Option (Attempt α)} {commit : α → State → Result} {s : State}

theorem tryWith_fatal {x : Attempt α} (ha : attempt s = some x) (hf : s.status = .fatal) :
    Driver.tryWith attempt commit s = .next (afterTryReply s .fatal) := by
  rw [Driver.tryWith, ha]
  exact if_pos hf

theorem tryWith_matched {a : α} (ha : attempt s = some (.matched a)) (hf : s.status ≠ .fatal) :
    Driver.tryWith attempt commit s = commit a s := by
  rw [Driver.tryWith, ha]
  exact if_neg hf

theorem tryWith_noMatch (ha : attempt s = some .noMatch) (hf : s.status ≠ .fatal) :
    Driver.tryWith attempt commit s = .next (afterTryReply s .noMatch) := by
  rw [Driver.tryWith, ha]
  exact if_neg hf

theorem tryWith_truncated {a : Nat} (ha : attempt s = some (.truncated a)) (hf : s.status ≠ .fatal) :
    Driver.tryWith attempt commit s = .next (afterTryTruncated s a) := by
  rw [Driver.tryWith, ha]
  exact if_neg hf

/-- With no row at the index both answers are open while `FATAL` (assumption 5), and only `REFUSED` is otherwise. -/
theorem tryWith_none (ha : attempt s = none) :
    Driver.tryWith attempt commit s = .next (afterTryReply s .refused) ∨
      s.status = .fatal ∧ Driver.tryWith attempt commit s = .next (afterTryReply s .fatal) := by
  rw [Driver.tryWith, ha]
  by_cases h : s.status = .fatal ∧ Config.badRowBeatsFatal = false
  · exact .inr ⟨h.1, if_pos h⟩
  · exact .inl (if_neg h)

end

/-! ### TRY of a row of `REF_TABLE` -/

/-- TRY of a row, over decoding it. -/
theorem step_try_decodeRow {s : State} {r : RowId} (h : s.ops.head? = some (.tryRow r.index)) :
    step s = Driver.tryWith (fun s => some (decodeRow s.reader s.cur r)) Driver.run s := by
  rw [step_try_eq h, Driver.tryRow, RowId.ofIndex_index]
  rfl

/-- TRY of a row, over TRY_CORE of it. -/
theorem step_try_tryCore {s : State} {r : RowId} (h : s.ops.head? = some (.tryRow r.index)) :
    step s = Driver.tryWith (fun s => some (coreAttempt s (indexedRow r))) Driver.commitCore s :=
  (step_try_decodeRow h).trans (tryWith_congr (row := some r) rfl rfl (decodeRow_agrees s))

theorem coreAttempt_indexedRow (s : State) (r : RowId) :
    coreAttempt s (indexedRow r) = (tryCore s.reader s.cur r.row).andThen fun m => .matched (m, r.index) := rfl

section
variable {s : State} {r : RowId} (h : s.TryIssued r.index)
include h

theorem step_try_matched {m : CoreMatch} (hm : tryCore s.reader s.cur r.row = .matched m) :
    step s = .next (afterTry s m.instr m.w (m.stop - s.cur) r.index) := by
  rw [step_try_tryCore h.1, tryWith_matched (a := (m, r.index)) (by rw [coreAttempt_indexedRow, hm]; rfl) h.2]
  exact complete_try h.1 m.instr m.w (m.stop - s.cur) r.index

theorem step_try_noMatch (hm : tryCore s.reader s.cur r.row = .noMatch) :
    step s = .next (afterTryReply s .noMatch) := by
  rw [step_try_tryCore h.1, tryWith_noMatch (by rw [coreAttempt_indexedRow, hm]; rfl) h.2]

theorem step_try_truncated {a : Nat} (hm : tryCore s.reader s.cur r.row = .truncated a) :
    step s = .next (afterTryTruncated s a) := by
  rw [step_try_tryCore h.1, tryWith_truncated (by rw [coreAttempt_indexedRow, hm]; rfl) h.2]

/-- TRY makes no end-of-stream check: at the end the row's first read is truncated there. -/
theorem step_try_at_end (hend : s.len ≤ s.cur) : step s = .next (afterTryTruncated s s.cur) := by
  have hr := decodeRow_pastEnd (State.reader_eq_pastEnd.mpr hend) r
  rw [step_try_decodeRow h.1, tryWith_truncated (congrArg some hr) h.2]

end

theorem step_try_noRow {s : State} {k : Nat} (h : s.ops.head? = some (.tryRow k)) (hk : 59 ≤ k) :
    step s = .next (afterTryReply s .refused) ∨ s.status = .fatal ∧ step s = .next (afterTryReply s .fatal) := by
  rw [step_try_eq h]
  exact tryWith_none (by rw [RowId.ofIndex_eq_none.mpr hk]; rfl)

/-- Settles O11: a row's index by the outcomes of TRY_CORE, an index outside the table by `step_try_noRow`. -/
theorem tryRowOutcomes : Obligations.TryRowOutcomes := by
  intro s k h
  refine ⟨?_, fun hk => ⟨fun hf => ?_, fun _ => ?_⟩⟩
  · rintro r rfl
    refine ⟨fun hf => ?_, fun hf => ?_⟩
    · rw [step_try_decodeRow h, tryWith_fatal rfl hf]
    · have hissued : s.TryIssued r.index := ⟨h, hf⟩
      exact ⟨fun _ => step_try_matched hissued, step_try_noMatch hissued, fun _ => step_try_truncated hissued,
        step_try_at_end hissued⟩
  · exact (step_try_noRow h hk).resolve_right fun hfatal => hf hfatal.1
  · exact (step_try_noRow h hk).symm.imp And.right id

/-! ### A step runs the decoded instruction -/

/-- Settles O25: NEXT past its two checks, and TRY past its one, hand a match to `exec`. -/
theorem stepRunsTheDecodedInstruction : Obligations.StepRunsTheDecodedInstruction := by
  intro s i stop
  refine ⟨fun h hlen hm => ?_, fun r h hm => ?_⟩
  · rw [step_next_eq h.1, Driver.next, Driver.nextWith, if_neg h.2, if_neg (by omega), hm]
    rfl
  · rw [step_try_decodeRow h.1, tryWith_matched (congrArg some hm) h.2]
    rfl

end Sys2Proof.Machine
end

section
/-! PROOFS of the statements of 43_stream_driver.md about one operation: LOAD, RESET and STATUS (R118, R119, R127), and
NEXT by its outcomes (R121 to R126), over any scan of a table. -/

namespace Sys2Proof.Machine

/-! ### LOAD, RESET, STATUS -/

/-- Settles O2: RESET goes on in every state; that nothing but RESET and LOAD leaves `FATAL` is O15's last clause. -/
theorem resetRestartsTheImage : Obligations.ResetRestartsTheImage := by
  refine ⟨fun s rest ho => ⟨_, step_perform ho, rfl, rfl, rfl, rfl, rfl, rfl, by simp [ho], rfl⟩,
    fun s t hf ht hleft => ?_⟩
  cases ho : s.ops with
  | nil =>
    cases (step_idle ho).symm.trans ht
    exact absurd hf hleft
  | cons op rest =>
    obtain ⟨-, -, -, -, -, hleaves⟩ := statusRecordsTheLastNext.2 s t op rest ho ht
    exact (hleaves hf hleft).imp (congrArg some) (Exists.imp fun _ => congrArg some)

/-- Settles O3: the buffer LOAD stores reads as the bytes below the capacity, of which the last is at `LEN - 1`. -/
theorem loadReplacesTheBuffer : Obligations.LoadReplacesTheBuffer := by
  intro s rest bytes ho
  refine ⟨_, step_perform ho, fun a ha => ?_, fun a ha => ?_, Memory.wf_ofBytes _, rfl, rfl, rfl, rfl, rfl,
    by simp [ho], rfl⟩
  · exact (Memory.read_ofBytes_take 262144 bytes a).trans (if_pos (by omega))
  · refine (Memory.read_ofBytes_take 262144 bytes a).trans ?_
    split
    · exact List.getElem?_eq_none (by omega)
    · rfl

/-- Settles O4: STATUS is answered in every state, with `FATAL_POS` in the state `FATAL` alone. -/
theorem statusReportsAndChangesNothing : Obligations.StatusReportsAndChangesNothing := by
  intro s rest ho
  have hstep : step s = .next { s with
      ops := rest, replies := s.replies ++ [.status s.status s.cur s.lgp s.len s.reportedFatalPos] } := by
    rw [step_perform ho, Driver.perform, Driver.status, State.answer, State.hear, ho]
    rfl
  refine ⟨fun hf => ?_, fun hf => ?_⟩
  · rw [hstep, State.reportedFatalPos, if_pos hf, hf]
  · rw [hstep, State.reportedFatalPos, if_neg hf]

/-! ### NEXT over any scan: an equation per outcome -/

section
variable {α : Type} {scan : State → Attempt α} {commit : α → State → Result} {s : State}

theorem nextWith_fatal (hf : s.status = .fatal) : Driver.nextWith scan commit s = .next (afterNextReply s .fatal) :=
  if_pos hf

theorem nextWith_end (hf : s.status ≠ .fatal) (hend : s.len ≤ s.cur) :
    Driver.nextWith scan commit s = .next { afterNextReply s .endOfStream with status := .ready } :=
  (if_neg hf).trans (if_pos hend)

theorem nextWith_matched {a : α} (hf : s.status ≠ .fatal) (hlen : s.cur < s.len) (ha : scan s = .matched a) :
    Driver.nextWith scan commit s = commit a s := by
  rw [Driver.nextWith, if_neg hf, if_neg (Nat.not_le.mpr hlen), ha]

theorem nextWith_truncated {a : Nat} (hf : s.status ≠ .fatal) (hlen : s.cur < s.len) (ha : scan s = .truncated a) :
    Driver.nextWith scan commit s = .next (afterNextTruncated s a) := by
  rw [Driver.nextWith, if_neg hf, if_neg (Nat.not_le.mpr hlen), ha]
  rfl

end

/-! ### NEXT while `FATAL`, and at the end of the input -/

/-- Settles O5: NEXT checks for `FATAL` before all else. -/
theorem nextWhileFatal : Obligations.NextWhileFatal := fun _ h hf =>
  ⟨(step_next_eq h).trans (nextWith_fatal hf), rfl⟩

theorem step_next_at_end {s : State} (h : s.NextIssued) (hend : s.len ≤ s.cur) :
    step s = .next { afterNextReply s .endOfStream with status := .ready } :=
  (step_next_eq h.1).trans (nextWith_end h.2 hend)

/-- Settles O6: `END` leaves the cursor where it is, so the next NEXT finds the end again. -/
theorem nextAtTheEnd : Obligations.NextAtTheEnd := by
  intro s h hend
  refine ⟨step_next_at_end h hend, rfl, fun t ht hnext => ?_⟩
  cases (step_next_at_end h hend).symm.trans ht
  exact step_next_at_end ⟨hnext, nofun⟩ hend

/-! ### NEXT with a match, and truncated -/

/-- A row's place in the table is the number of the rows before it. -/
theorem indexedRows_append (before : List Row) (r : Row) (after : List Row) :
    ∃ later, indexedRows (before ++ r :: after) = before.zipIdx ++ (r, before.length) :: later :=
  ⟨after.zipIdx (before.length + 1), by simp [indexedRows, List.zipIdx_append, List.zipIdx_cons]⟩

theorem stepOf_next_eq {p : Params} {s : State} (hp : p.tableAccepted = true) (h : s.ops.head? = some .next) :
    stepOf p s = Driver.nextOf p s := by
  obtain ⟨rest, ho⟩ := head_issued h
  exact (stepOf_perform ho).trans (if_pos hp)

/-- Settles O7: with the rows before it in `NOMATCH`, row `r` decides the scan (`firstAttempt_append`). -/
theorem firstRowInOrderDecides : Obligations.FirstRowInOrderDecides := by
  intro p s before r after hp hn hlen ht hbefore
  have hscan : coreAttempt s (r, before.length) ≠ .noMatch →
      firstAttempt (coreAttempt s) (indexedRows p.formatTable) = coreAttempt s (r, before.length) := by
    obtain ⟨later, hrows⟩ := indexedRows_append before r after
    rw [ht, hrows]
    refine firstAttempt_append _ _ _ _ fun q hq => ?_
    rw [coreAttempt, hbefore q.1 (List.fst_mem_of_mem_zipIdx hq)]
    rfl
  rw [stepOf_next_eq hp hn.1]
  refine ⟨fun m hm => ?_, fun a ha => ?_⟩
  · have hr : coreAttempt s (r, before.length) = .matched (m, before.length) := by rw [coreAttempt, hm]; rfl
    calc Driver.nextOf p s = Driver.commitCore (m, before.length) s :=
          nextWith_matched hn.2 hlen ((hscan (by rw [hr]; nofun)).trans hr)
      _ = _ := complete_next hn.1 _ _ _ _
  · have hr : coreAttempt s (r, before.length) = .truncated a := by rw [coreAttempt, ha]; rfl
    exact nextWith_truncated hn.2 hlen ((hscan (by rw [hr]; nofun)).trans hr)

/-! ### An encoding at the cursor -/

theorem encode_length_pos (i : Instr) : 1 ≤ (encode i).length := by
  have hlen := (Laws.EncodeLength.every i).1
  have hrow := i.rowId.opcodeMask_bytes
  omega

theorem encode_ne_nil (i : Instr) : encode i ≠ [] := List.ne_nil_of_length_pos (encode_length_pos i)

/-- Bytes that stand at the cursor stand below `LEN`. -/
theorem State.Holds.end_le_len {s : State} {bytes : List Byte} (h : s.Holds bytes) (hne : bytes ≠ []) :
    s.cur + bytes.length ≤ s.len := by
  rw [← List.dropLast_append_getLast hne] at h ⊢
  obtain ⟨hlast, -⟩ := holds_cons.mp (holds_append.mp h).2
  have := (State.reader_eq_byte hlast).1
  rw [List.length_append, List.length_singleton]
  omega

/-- Where a well-formed instruction's encoding stands, the scan of the table gives it back. -/
theorem decodeAt_of_holds {rd : Reader} {cur : Nat} {i : Instr} (hw : i.wf = true)
    (h : readerHolds rd cur (encode i) = true) : decodeAt rd cur = .matched (i, cur + (encode i).length) := by
  have hrow := decodeRow_of_holds hw h
  rw [decodeAt_eq_decodeRow (by rw [hrow]; nofun), hrow]

/-- What the scan of the table decodes is well-formed, and its encoding stands where it was read. -/
theorem encoding_of_decodeAt {rd : Reader} {cur stop : Nat} {i : Instr} (h : decodeAt rd cur = .matched (i, stop)) :
    i.wf = true ∧ readerHolds rd cur (encode i) = true ∧ stop = cur + (encode i).length := by
  obtain ⟨r, -, hr⟩ := firstAttempt_mem (decodeRow rd cur) RowId.all (by rw [← decodeAt, h]; nofun)
  obtain ⟨hw, hholds⟩ := encoding_of_decodeRow (hr.symm.trans h)
  cases (decodeAt_of_holds hw hholds).symm.trans h
  exact ⟨hw, hholds, rfl⟩

/-- Completions that are the same in every state have the same length. -/
theorem complete_length_inj {d e : Decoded} {w v : Bool} {len len' row row' : Nat}
    (h : ∀ s, complete d w len row s = complete e v len' row' s) : len = len' := by
  have hs := h (State.reset.issue .next)
  rw [complete_next rfl, complete_next rfl] at hs
  cases congrArg State.replies (Host.Outcome.next.inj hs)
  rfl

/-- TRY_CORE of a row and decoding it end at the same offset. -/
theorem tryCore_stop_eq {rd : Reader} {cur stop : Nat} {r : RowId} {m : CoreMatch} {i : Instr}
    (hm : tryCore rd cur r.row = .matched m) (hd : decodeRow rd cur r = .matched (i, stop)) : m.stop = stop := by
  obtain ⟨p, hp, hfinish⟩ := Attempt.andThen_eq_matched.mp hm
  rw [decodeRow, hp] at hd
  cases hfinish
  cases hd
  rfl

/-- Where a well-formed instruction's encoding stands, TRY_CORE of its row ends after it, and the instruction's meaning
completes with what TRY_CORE answers and the encoding's length. -/
theorem tryCore_of_encoding {rd : Reader} {cur : Nat} {i : Instr} (hw : i.wf = true)
    (h : readerHolds rd cur (encode i) = true) :
    ∃ m, tryCore rd cur i.rowId.row = .matched m ∧ m.stop = cur + (encode i).length ∧
      ∀ s, exec i s = complete m.instr m.w (encode i).length i.rowId.index s := by
  obtain ⟨m, len, hm, he⟩ := tryCore_of_holds hw h
  obtain ⟨_, _, hshape⟩ := exec_shape i
  obtain rfl := complete_length_inj fun s => (he s).symm.trans (hshape s)
  exact ⟨m, hm, tryCore_stop_eq hm (decodeRow_of_holds hw h), he⟩

/-- With a well-formed instruction's encoding at the cursor, NEXT commits what the instruction's meaning completes
with. -/
theorem step_next_of_holds {s : State} {i : Instr} {d : Decoded} {w : Bool} (hn : s.NextIssued) (hw : i.wf = true)
    (h : s.Holds (encode i)) (he : ∀ s, exec i s = complete d w (encode i).length i.rowId.index s) :
    step s = .next (afterNext s d w (encode i).length i.rowId.index) := by
  have hpos := encode_length_pos i
  have hend := State.Holds.end_le_len h (encode_ne_nil i)
  calc step s = exec i s := (stepRunsTheDecodedInstruction s i _).1 hn (by omega) (decodeAt_of_holds hw h)
    _ = _ := (he s).trans (complete_next hn.1 _ _ _ _)

/-- Settles O8: the bytes that decode are an encoding that stands at the cursor, whose meaning is TRY_CORE's answer. -/
theorem nextCommitsTheMatch : Obligations.NextCommitsTheMatch := by
  intro s i stop hn hlen h
  obtain ⟨hw, hholds, rfl⟩ := encoding_of_decodeAt h
  obtain ⟨m, hm, hstop, he⟩ := tryCore_of_encoding hw hholds
  have hpos := encode_length_pos i
  refine ⟨m, hm, hstop, ?_, by omega, State.Holds.end_le_len hholds (encode_ne_nil i)⟩
  rw [Nat.add_sub_cancel_left]
  exact step_next_of_holds hn hw hholds he

/-! ### NEXT with no matching row -/

/-- Settles O9: a scan that no row matched has read the byte at the cursor. -/
theorem nextWithNoMatchingRow : Obligations.NextWithNoMatchingRow := by
  intro s hn _ h
  obtain ⟨b, hb⟩ := decodeAt_noMatch h
  exact ⟨b, hb, step_next_of_noMatch hn hb h, rfl⟩

/-- Of NEXT's outcomes, that of an input that no row matches is the only one answered `NOMATCH`. -/
theorem step_next_noMatch_inv {s t : State} (h : s.ops.head? = some .next) (ht : step s = .next t)
    (hr : t.replies = s.replies ++ [.next .noMatch]) :
    ∃ b, decodeAt s.reader s.cur = .noMatch ∧ s.reader s.cur = .byte b ∧ t = afterNextNoMatch s b := by
  obtain ⟨-, rfl⟩ | ⟨-, -, rfl⟩ | ⟨-, -, ⟨i, stop, -, hi⟩ | hno | ⟨a, -, rfl⟩⟩ := step_next_cases h ht
  case inr.inr.inr.inl => exact hno
  case inr.inr.inl =>
    obtain ⟨d, w, he⟩ := exec_shape i
    rw [he, complete_next h] at hi
    cases hi
    exact absurd hr (append_reply_ne nofun)
  all_goals exact absurd hr (append_reply_ne nofun)

/-- Settles O10: a NEXT answered `NOMATCH` leaves the buffer and the cursor, so the next one scans the same bytes. -/
theorem noMatchRepeats : Obligations.NoMatchRepeats := by
  intro s t rest ho ht hr
  obtain ⟨b, hscan, hb, rfl⟩ := step_next_noMatch_inv (by rw [ho]; rfl) ht hr
  have hn : (afterNextNoMatch s b).NextIssued := ⟨by simp [afterNextNoMatch, ho], nofun⟩
  exact ⟨_, ⟨s.cur, b⟩, step_next_of_noMatch hn hb hscan, rfl, rfl, rfl, rfl, rfl, List.append_assoc _ _ _⟩

end Sys2Proof.Machine
end

section
/-! PROOFS of the statements of 43_stream_driver.md about a whole run: a concatenation of encodings decodes to its parts
(R131), and the decode loop ends (R129 and R130). -/

namespace Sys2Proof.Machine

/-! ### What LOAD leaves -/

/-- After LOAD the decoder reads the bytes of the image below the capacity. -/
theorem State.store_reader (capacity : Nat) (bytes : List Byte) (s : State) :
    (s.store capacity bytes).reader = listReader (bytes.take capacity) := by
  funext a
  rw [State.reader, State.store_len, State.store_buf, Memory.read_ofBytes, Nat.min_comm, ← List.length_take, listReader]
  by_cases ha : a < (bytes.take capacity).length
  · rw [if_pos ha, List.getElem?_eq_getElem ha]
  · rw [if_neg ha, List.getElem?_eq_none (Nat.not_lt.mp ha)]

/-- LOAD goes on from any state to a sound one with the cursor at the image's first byte. -/
theorem step_load {s : State} {rest : List HostOp} {bytes : List Byte} (ho : s.ops = .load bytes :: rest) :
    ∃ t, step s = .next t ∧ t.Sound ∧ t.reader = listReader (bytes.take Config.inputCapacity) ∧
      t.len = min bytes.length Config.inputCapacity ∧ t.cur = 0 ∧ t.lgp = 0 ∧ t.status = .ready ∧ t.ops = rest ∧
      t.replies = s.replies ++ [.loaded] :=
  ⟨_, step_perform ho, ⟨State.store_offsets _ bytes s, Nat.min_le_right _ _, Nat.zero_le _, le_rfl, nofun⟩,
    State.store_reader _ bytes s, rfl, rfl, rfl, rfl, by simp [ho], rfl⟩

/-! ### A concatenation of encodings -/

theorem core_run_succ {s t : State} (h : step s = .next t) (k : Nat) : core.run (k + 1) s = core.run k t := by
  have hcore : core.step s = .next t := h
  simp only [Host.Core.run, hcore]

/-- What NEXT replies for a well-formed instruction is what the instruction's meaning completes with. -/
theorem replyOf_eq {i : Instr} (hw : i.wf = true) :
    ∃ d w, replyOf i = .next (.instr d w (encode i).length i.rowId.index) ∧
      ∀ s, exec i s = complete d w (encode i).length i.rowId.index s := by
  obtain ⟨m, hm, hstop, he⟩ := tryCore_of_encoding (rd := listReader (encode i)) (cur := 0) hw
    (holds_listReader.mpr List.prefix_rfl)
  exact ⟨m.instr, m.w, by rw [replyOf, hm, ← Nat.zero_add (encode i).length, ← hstop], he⟩

/-- From a state at whose cursor the encodings stand, one after another up to `LEN`, a NEXT for each and one more answer
each instruction and then `END`. -/
theorem run_concatenation {is : List Instr} {s : State} (hw : ∀ i ∈ is, i.wf = true) (hf : s.status ≠ .fatal)
    (ho : s.ops = List.replicate (is.length + 1) .next) (h : s.HoldsOnly (is.flatMap encode)) :
    ∃ t, core.run (is.length + 1) s = .next t ∧ t.cur = t.len ∧ t.len = s.len ∧ t.status = .ready ∧
      t.replies = s.replies ++ is.map replyOf ++ [.next .endOfStream] := by
  induction is generalizing s with
  | nil =>
    obtain ⟨-, hlen⟩ := h
    have hstep := step_next_at_end ⟨by rw [ho]; rfl, hf⟩ hlen.le
    exact ⟨_, core_run_succ hstep 0, hlen.symm, rfl, rfl, by simp [afterNextReply]⟩
  | cons i is ih =>
    obtain ⟨hwi, hwis⟩ := List.forall_mem_cons.mp hw
    obtain ⟨hholds, hlen⟩ := h
    rw [List.flatMap_cons] at hholds hlen
    obtain ⟨hfirst, hrest⟩ := holds_append.mp hholds
    obtain ⟨d, w, hreply, he⟩ := replyOf_eq hwi
    have hstep := step_next_of_holds ⟨by rw [ho]; rfl, hf⟩ hwi hfirst he
    obtain ⟨t, hrun, hcur, htlen, hstatus, hreplies⟩ := ih (s := afterNext s d w (encode i).length i.rowId.index)
      hwis nofun (by simp [afterNext, ho]) ⟨hrest, hlen.trans (by simp [afterNext, Nat.add_assoc])⟩
    refine ⟨t, (core_run_succ hstep _).trans hrun, hcur, htlen, hstatus, ?_⟩
    rw [hreplies, List.map_cons, hreply]
    simp [afterNext]

/-- Settles O28: LOAD places the concatenation at the cursor (`step_load`), and the NEXTs take it apart
(`run_concatenation`). -/
theorem concatenationDecodesToItsParts : Obligations.ConcatenationDecodesToItsParts := by
  intro is hw hcap
  obtain ⟨u, hload, -, hreader, hlen, hcur, -, hstatus, hops, hreplies⟩ := step_load
    (s := { State.reset with ops := .load (is.flatMap encode) :: List.replicate (is.length + 1) .next }) rfl
  have hholds : u.HoldsOnly (is.flatMap encode) := by
    refine ⟨?_, by rw [hlen, hcur]; omega⟩
    rw [State.Holds, hreader, hcur, List.take_of_length_le hcap]
    exact holds_listReader.mpr List.prefix_rfl
  obtain ⟨t, hrun, htcur, htlen, htstatus, htreplies⟩ := run_concatenation hw (by rw [hstatus]; nofun) hops hholds
  refine ⟨t, (core_run_succ hload _).trans hrun, htcur, ?_, htstatus, ?_⟩
  · rw [htlen, hlen, Nat.min_eq_left hcap]
  · rw [htreplies, hreplies]
    rfl

/-! ### NEXT in a sound state -/

theorem State.Sound.reader_ne_noValue {s : State} (hs : s.Sound) (a : Nat) : s.reader a ≠ .noValue := by
  intro h
  by_cases ha : a < s.len
  · obtain ⟨b, -, hb⟩ := hs.byte_of_lt ha
    cases h.symm.trans hb
  · cases h.symm.trans (State.reader_eq_pastEnd.mpr (Nat.not_lt.mp ha))

/-- What the host issues is no part of the invariant. -/
theorem State.Sound.issue {s : State} (hs : s.Sound) (op : HostOp) : (s.issue op).Sound :=
  ⟨hs.buffer, hs.capacity, hs.cursor, hs.lastGood, hs.fatal⟩

/-- In a sound state NEXT is answered: no attempt meets an offset below `LEN` with no value. -/
theorem State.Sound.step_next_goes_on {s : State} (hs : s.Sound) (h : s.ops.head? = some .next) :
    ∃ t, step s = .next t := by
  by_cases hf : s.status = .fatal
  · exact ⟨_, (step_next_eq h).trans (nextWith_fatal hf)⟩
  by_cases hend : s.len ≤ s.cur
  · exact ⟨_, step_next_at_end ⟨h, hf⟩ hend⟩
  have hlen : s.cur < s.len := Nat.not_le.mp hend
  cases hd : decodeAt s.reader s.cur with
  | matched m =>
    obtain ⟨_, _, _, _, he, -⟩ := exec_of_decodeAt (i := m.1) (stop := m.2) hd
    exact ⟨_, ((stepRunsTheDecodedInstruction s m.1 m.2).1 ⟨h, hf⟩ hlen hd).trans (he.trans (complete_next h _ _ _ _))⟩
  | noMatch =>
    obtain ⟨b, hb⟩ := decodeAt_noMatch hd
    exact ⟨_, step_next_of_noMatch ⟨h, hf⟩ hb hd⟩
  | truncated a => exact ⟨_, (step_next_eq h).trans (nextWith_truncated hf hlen hd)⟩
  | noValue a =>
    have hreads := decodeAt_reads s.reader s.cur
    rw [hd] at hreads
    exact absurd hreads.2.2 (hs.reader_ne_noValue a)

/-! ### The decode loop -/

/-- How a run of the decode loop ends with the response `last` (rule R130). -/
def Run.EndsWith (run : Run) (last : Response) : Prop :=
  (last = .endOfStream ∧ run.finish = .success ∧ run.state.status = .ready ∧ run.state.cur = run.state.len) ∨
  (last = .noMatch ∧ run.finish = .unmatched run.state.cur ∧ run.state.status = .noMatch ∧
    run.state.cur < run.state.len) ∨
  (last = .fatal ∧ run.finish = .missing run.state.fatalPos ∧ run.state.status = .fatal ∧
    run.state.fatalPos = run.state.len ∧ run.state.cur < run.state.len)

/-- What a run of the decode loop from `s` leaves, with the responses `is` before the last one. -/
structure Run.From (run : Run) (s : State) (is : List Response) (last : Response) : Prop where
  len : run.state.len = s.len
  count : s.cur + is.length ≤ s.len
  instrs : ∀ r ∈ is, r.code = 0
  lastCode : last.code ≠ 0
  replies : run.state.replies = s.replies ++ is.map .next ++ [.next last]
  lines : run.lines.map some = is.map Response.render
  output : run.state.outputLines = s.outputLines ++ run.lines
  ops : run.state.ops = s.ops
  cur : run.state.cur = s.cur + (is.map Response.length).sum
  lgp : run.state.lgp = run.state.cur
  ends : run.EndsWith last

/-- The loop goes on after an instruction. -/
theorem Run.From.after {run : Run} {s : State} {is : List Response} {last : Response} {d : Decoded} {w : Bool}
    {len row : Nat} (hpos : 1 ≤ len) (h : run.From (afterNext (s.issue .next) d w len row) is last) :
    (Run.after (instrText d w) run).From s (.instr d w len row :: is) last where
  len := h.len
  count := by
    have := h.count
    simp only [afterNext, State.issue_cur, State.issue_len, List.length_cons] at this ⊢
    omega
  instrs := List.forall_mem_cons.mpr ⟨rfl, h.instrs⟩
  lastCode := h.lastCode
  replies := by
    rw [Run.after, h.replies]
    simp [afterNext]
  lines := congrArg (some (instrText d w) :: ·) h.lines
  output := by
    rw [Run.after, h.output, State.outputLines_append (s := s) rfl]
    simp [Reply.line, Response.render]
  ops := h.ops
  cur := h.cur.trans (by simp [afterNext, Response.length, Nat.add_assoc])
  lgp := h.lgp
  ends := h.ends

theorem Response.render_eq_none {r : Response} (h : r.code ≠ 0) : r.render = none := by
  cases r with
  | instr i w len row => exact absurd rfl h
  | endOfStream | noMatch | fatal | refused => rfl

/-- The loop ends with a reply that moves no cursor and prints no line. -/
theorem Run.From.at_end {s t : State} {last : Response} {e : RunEnd} (hcur : s.cur ≤ s.len)
    (hlgp : s.lgp = s.cur) (hlen : t.len = s.len) (htcur : t.cur = s.cur) (htlgp : t.lgp = s.lgp) (hops : t.ops = s.ops)
    (hlast : last.code ≠ 0) (hr : t.replies = s.replies ++ [.next last]) (he : Run.EndsWith ⟨[], e, t⟩ last) :
    Run.From ⟨[], e, t⟩ s [] last where
  len := hlen
  count := hcur
  instrs := nofun
  lastCode := hlast
  replies := by simpa using hr
  lines := rfl
  output := by
    rw [State.outputLines_append hr, Reply.line, Response.render_eq_none hlast]
    rfl
  ops := hops
  cur := htcur
  lgp := by rw [htlgp, hlgp, htcur]
  ends := he

/-- The decode loop from a sound state, with a NEXT to spare for each byte left: at the end of the input it ends with
`END`; before it, an instruction uses up at least one byte, and the other two outcomes end the run. -/
theorem decodeLoop_of_sound {fuel : Nat} {s : State} (hs : s.Sound) (hf : s.status ≠ .fatal) (hl : s.lgp = s.cur)
    (hfuel : s.len - s.cur < fuel) :
    ∃ run is last, decodeLoop step fuel s = some run ∧ Run.From run s is last := by
  induction fuel generalizing s with
  | zero => exact absurd hfuel (Nat.not_lt_zero _)
  | succ fuel ih =>
    by_cases hend : s.len ≤ s.cur
    · exact ⟨_, [], .endOfStream, decodeLoop_ends (step_next_at_end ⟨rfl, hf⟩ hend) List.getLast?_concat rfl,
        .at_end hs.cursor hl rfl rfl rfl rfl nofun rfl (.inl ⟨rfl, rfl, rfl, le_antisymm hs.cursor hend⟩)⟩
    have hlt : s.cur < s.len := Nat.not_le.mp hend
    have hissued := hs.issue .next
    obtain ⟨t, ht⟩ := hissued.step_next_goes_on rfl
    have hsound := stepKeepsSound _ _ hissued ht
    cases step_effect_of_ops rfl ht with
    | nextFatal hfatal => exact absurd hfatal hf
    | nextEnd _ hat => exact absurd hat hend
    | nextInstr d w len row _ hpos _ =>
      obtain ⟨run, is, last, hrun, hfrom⟩ := ih hsound nofun rfl (by
        simp only [afterNext, State.issue_len, State.issue_cur]
        omega)
      exact ⟨_, _, _, (decodeLoop_goes_on ht List.getLast?_concat).trans (congrArg _ hrun), hfrom.after hpos⟩
    | nextNoMatch b =>
      exact ⟨_, [], .noMatch, decodeLoop_ends ht List.getLast?_concat rfl,
        .at_end hs.cursor hl rfl rfl rfl rfl nofun rfl (.inr (.inl ⟨rfl, rfl, rfl, hlt⟩))⟩
    | nextTruncated a _ hlen =>
      exact ⟨_, [], .fatal, decodeLoop_ends ht List.getLast?_concat rfl,
        .at_end hs.cursor hl rfl rfl rfl rfl nofun rfl (.inr (.inr ⟨rfl, rfl, rfl, hlen hs.cursor, hlt⟩))⟩

theorem decodeImage_eq {run : State → Result} {bytes : List Byte} {s t : State}
    (h : run (s.issue (.load bytes)) = .next t) : decodeImage run bytes s = decodeLoop run (t.len + 1) t := by
  rw [decodeImage, h]

/-- Settles O60: LOAD leaves a sound state at the image's first byte (`step_load`), from which the loop ends within
`LEN + 1` NEXTs (`decodeLoop_of_sound`). -/
theorem decodeLoopEnds : Obligations.DecodeLoopEnds := by
  intro s bytes
  obtain ⟨t, hload, hs, -, hlen, hcur, hlgp, hstatus, hops, hreplies⟩ := step_load (s := s.issue (.load bytes)) rfl
  obtain ⟨run, is, last, hrun, h⟩ := decodeLoop_of_sound (fuel := t.len + 1) hs (by rw [hstatus]; nofun)
    (hlgp.trans hcur.symm) (by omega)
  have hcount := h.count
  refine ⟨run, is, last, (decodeImage_eq hload).trans hrun, h.len.trans hlen, ?_, h.instrs, h.lastCode, ?_, h.lines, ?_,
    h.ops.trans hops, ?_, h.lgp, h.ends⟩
  · rw [h.len]
    omega
  · rw [h.replies, hreplies]
    simp
  · rw [h.output, State.outputLines_append hreplies]
    simp [Reply.line, State.outputLines]
  · rw [h.cur, hcur, Nat.zero_add]

end Sys2Proof.Machine
end

section
/-! PROOFS of the statements of 44_rendering.md: the line of a response, and what a reply adds to the output (R132). -/

namespace Sys2Proof.Machine

/-! ### The line of an instruction -/

theorem operandText_eq_none_iff {t : Tag} {w : Bool} {a : Operand} : operandText t w a = none ↔ a = .none := by
  cases a with
  | none => exact iff_of_true rfl rfl
  | reg | seg | imm | mem => exact iff_of_false nofun nofun

section
variable {t : Tag} {a b : Operand} {w : Bool} {x y : String}

theorem instrText_no_operand (ha : a = .none) (hb : b = .none) : instrText ⟨t, a, b⟩ w = Tag.mnemonic t := by
  simp only [instrText, operandText_eq_none_iff.mpr ha, operandText_eq_none_iff.mpr hb]

theorem instrText_slot0_alone (ha : operandText t w a = some x) (hb : b = .none) :
    instrText ⟨t, a, b⟩ w = Tag.mnemonic t ++ " " ++ x := by
  simp only [instrText, ha, operandText_eq_none_iff.mpr hb]

theorem instrText_slot1_alone (ha : a = .none) (hb : operandText t w b = some y) :
    instrText ⟨t, a, b⟩ w = Tag.mnemonic t ++ " " ++ y := by
  simp only [instrText, operandText_eq_none_iff.mpr ha, hb]

theorem instrText_both_slots (ha : operandText t w a = some x) (hb : operandText t w b = some y) :
    instrText ⟨t, a, b⟩ w = Tag.mnemonic t ++ " " ++ x ++ ", " ++ y := by
  simp only [instrText, ha, hb]

end

/-! ### The line of a response -/

theorem Response.render_isSome_iff {r : Response} :
    r.render.isSome = true ↔ ∃ i w len row, r = .instr i w len row := by
  cases r with
  | instr i w len row => exact iff_of_true rfl ⟨i, w, len, row, rfl⟩
  | endOfStream | noMatch | fatal | refused => simp [Response.render]

/-! ### The output channel -/

/-- A reply that has a line adds it to the output text, with one newline. -/
theorem State.outputText_append {s t : State} {r : Reply} {line : String} (h : t.replies = s.replies ++ [r])
    (hline : r.line = some line) : t.outputText = s.outputText ++ (line ++ "\n") := by
  have hlines : t.outputLines = s.outputLines ++ [line] := by rw [State.outputLines_append h, hline, Option.toList_some]
  calc t.outputText
      = (s.outputLines.map (· ++ "\n")).foldr (· ++ ·) ("" ++ (line ++ "\n")) := by
        simp [State.outputText, hlines]
    _ = s.outputText ++ (line ++ "\n") := List.foldr_assoc (ha := ⟨fun _ _ _ => String.append_assoc⟩)

/-- Settles O48: the line of an instruction by which of its slots are present, and `State.outputText_append` for the
newline. -/
theorem lineOfAResponse : Obligations.LineOfAResponse := by
  refine ⟨fun _ => Response.render_isSome_iff, fun t a b w len row => ⟨fun ha hb => ?_, fun x ha hb => ?_,
    fun y ha hb => ?_, fun x y ha hb => ?_, operandText_eq_none_iff⟩, fun s t r line => State.outputText_append⟩
  · exact congrArg some (instrText_no_operand ha hb)
  · exact congrArg some (instrText_slot0_alone ha hb)
  · exact congrArg some (instrText_slot1_alone ha hb)
  · exact congrArg some (instrText_both_slots ha hb)

end Sys2Proof.Machine
end

section
/-! What the rule of a row says of an instruction (`RowGives`), for every row at once: it follows from the instruction's
meaning alone, since the encoding decodes to the instruction and an encoding that is cut short is truncated there. -/

namespace Sys2Proof.Machine

/-! ### The bytes of an input -/

theorem holds_iff_getElem? {rd : Reader} {a : Nat} {bytes : List Byte} :
    readerHolds rd a bytes = true ↔ ∀ k b, bytes[k]? = some b → rd (a + k) = .byte b := by
  induction bytes generalizing a with
  | nil => simp [readerHolds]
  | cons c cs ih =>
    rw [holds_cons, ih]
    refine ⟨fun ⟨hc, hcs⟩ k b hb => ?_, fun h => ⟨h 0 c rfl, fun k b hb => ?_⟩⟩
    · cases k with
      | zero => cases hb; exact hc
      | succ k => rw [Nat.add_comm k, ← Nat.add_assoc]; exact hcs k b hb
    · rw [Nat.add_assoc, Nat.add_comm 1]
      exact h (k + 1) b hb

/-- With these bytes alone at the cursor, the decoder reads what the reader of the list reads. -/
theorem State.HoldsOnly.reader_eq {s : State} {bytes : List Byte} (h : s.HoldsOnly bytes) (k : Nat) :
    s.reader (s.cur + k) = listReader bytes k := by
  obtain ⟨hholds, hlen⟩ := h
  unfold listReader
  cases hk : bytes[k]? with
  | some b => exact holds_iff_getElem?.mp hholds k b hk
  | none =>
    have := List.getElem?_eq_none_iff.mp hk
    exact State.reader_eq_pastEnd.mpr (by omega)

/-! ### A literal that differs -/

/-- EXTRACT ends in `NOMATCH` iff a literal bit differs, of the first byte or of the second. -/
theorem extract_eq_noMatch_iff {rd : Reader} {cur : Nat} {r : RowId} :
    extract rd cur r.row = .noMatch ↔
      ∃ b, rd cur = .byte b ∧ (r.opcodeMask.firstFits b = false ∨
        r.opcodeMask.bytes = 2 ∧ ∃ c, rd (cur + 1) = .byte c ∧ r.opcodeMask.fits b c = false) := by
  constructor
  · intro h
    cases hb : rd cur with
    | pastEnd | noValue => simp [r.extract_eq, memRead1, hb] at h
    | byte b =>
      refine ⟨b, rfl, ?_⟩
      by_contra hfit
      simp only [not_or, Bool.not_eq_false] at hfit
      obtain ⟨hfirst, hsecond⟩ := hfit
      obtain h1 | h2 := r.opcodeMask_bytes
      · cases (extract_oneByte hb h1 hfirst).symm.trans h
      · rw [extract_twoBytes hb h2 hfirst, memRead1] at h
        cases hc : rd (cur + 1) with
        | pastEnd | noValue => simp [hc] at h
        | byte c =>
          refine hsecond ⟨h2, c, hc, ?_⟩
          simpa [hc] using h
  · rintro ⟨b, hb, hfirst | ⟨h2, c, hc, hsecond⟩⟩
    · exact extract_of_first_differs hb hfirst
    · exact extract_of_second_differs hb hc h2 hsecond

theorem decodeRow_noMatch_iff_literalDiffers {s : State} {r : RowId} :
    decodeRow s.reader s.cur r = .noMatch ↔ s.literalDiffers r :=
  decodeRow_eq_noMatch_iff.trans extract_eq_noMatch_iff

/-! ### An encoding that is cut short -/

/-- A byte that is read of a cut input stands at its place in the whole one. -/
theorem State.HoldsOnly.byte_of_cut {s : State} {bytes : List Byte} {n k : Nat} {b : Byte}
    (h : s.HoldsOnly (bytes.take n)) (hb : s.reader (s.cur + k) = .byte b) : listReader bytes k = .byte b := by
  rw [h.reader_eq, listReader_eq_byte, List.getElem?_take] at hb
  split at hb
  · exact listReader_eq_byte.mpr hb
  · cases hb

theorem State.HoldsOnly.len_of_cut {s : State} {bytes : List Byte} {n : Nat} (h : s.HoldsOnly (bytes.take n))
    (hn : n < bytes.length) : s.len = s.cur + n := by
  rw [h.2, List.length_take, Nat.min_eq_left hn.le]

section
variable {s : State} {i : Instr} {n : Nat} (hw : i.wf = true) (h : s.HoldsOnly ((encode i).take n))
include hw h

/-- The literals that are left of an encoding are the row's. -/
theorem decodeRow_of_cut_ne_noMatch : decodeRow s.reader s.cur i.rowId ≠ .noMatch := by
  intro hno
  obtain ⟨b, hb, hdiffers⟩ := decodeRow_noMatch_iff_literalDiffers.mp hno
  have hwhole : decodeRow (listReader (encode i)) 0 i.rowId = .noMatch :=
    decodeRow_eq_noMatch_iff.mpr (extract_eq_noMatch_iff.mpr ⟨b, h.byte_of_cut (k := 0) hb,
      hdiffers.imp_right (.imp_right (.imp fun c => .imp_left (h.byte_of_cut (k := 1))))⟩)
  cases hwhole.symm.trans (decodeRow_of_holds hw (holds_listReader.mpr List.prefix_rfl))

/-- Nothing decodes from less than the whole encoding: it would be the instruction itself. -/
theorem decodeRow_of_cut_ne_matched (hn : n < (encode i).length) (m : Instr × Nat) :
    decodeRow s.reader s.cur i.rowId ≠ .matched m := by
  intro hm
  obtain ⟨hw', hholds⟩ := encoding_of_decodeRow (i := m.1) (stop := m.2) hm
  have hprefix : encode m.1 <+: encode i := holds_listReader.mp <| holds_iff_getElem?.mpr fun k b hk => by
    rw [Nat.zero_add]
    exact h.byte_of_cut (holds_iff_getElem?.mp hholds k b hk)
  have hi : m.1 = i := by
    cases (decode_of_prefix hw' hprefix).symm.trans (decode_of_prefix hw List.prefix_rfl)
    rfl
  have hend := State.Holds.end_le_len hholds (encode_ne_nil m.1)
  rw [hi, h.len_of_cut hn] at hend
  omega

/-- An encoding cut after `n` bytes: its row misses the byte there (60_exceptions.md rule R207). -/
theorem decodeRow_of_cut (hn : n < (encode i).length) :
    decodeRow s.reader s.cur i.rowId = .truncated (s.cur + n) := by
  have hlen := h.len_of_cut hn
  have hreads := decodeRow_reads s.reader s.cur i.rowId
  cases hd : decodeRow s.reader s.cur i.rowId with
  | matched m => exact absurd hd (decodeRow_of_cut_ne_matched hw h hn m)
  | noMatch => exact absurd hd (decodeRow_of_cut_ne_noMatch hw h)
  | truncated a =>
    rw [hd] at hreads
    rw [truncated_at_len hreads (by omega), hlen]
  | noValue a =>
    rw [hd] at hreads
    obtain ⟨hle, -, hno⟩ := hreads
    rw [← Nat.add_sub_of_le hle, h.reader_eq, listReader] at hno
    split at hno <;> cases hno

/-- NEXT on a cut encoding: no other row answers for it, since its own does not end in `NOMATCH`. -/
theorem step_next_of_cut (hissued : s.NextIssued) (hpos : 0 < n) (hn : n < (encode i).length) :
    step s = .next (afterNextTruncated s (s.cur + n)) := by
  have hcut := decodeRow_of_cut hw h hn
  have hlen := h.len_of_cut hn
  rw [step_next_eq hissued.1]
  exact nextWith_truncated hissued.2 (by omega) ((decodeAt_eq_decodeRow (by rw [hcut]; nofun)).trans hcut)

theorem step_try_of_cut (hissued : s.TryIssued i.rowId.index) (hn : n < (encode i).length) :
    step s = .next (afterTryTruncated s (s.cur + n)) := by
  rw [step_try_decodeRow hissued.1]
  exact tryWith_truncated (congrArg some (decodeRow_of_cut hw h hn)) hissued.2

end

/-! ### What a row's rule says -/

theorem step_try_of_literalDiffers {s : State} {r : RowId} (hissued : s.TryIssued r.index) (h : s.literalDiffers r) :
    step s = .next (afterTryReply s .noMatch) := by
  rw [step_try_decodeRow hissued.1]
  exact tryWith_noMatch (congrArg some (decodeRow_noMatch_iff_literalDiffers.mpr h)) hissued.2

/-- With a well-formed instruction's encoding at the cursor, TRY of its row answers what the instruction's meaning
completes with. -/
theorem step_try_of_holds {s : State} {i : Instr} {d : Decoded} {w : Bool} (hissued : s.TryIssued i.rowId.index)
    (hw : i.wf = true) (h : s.Holds (encode i))
    (he : ∀ s, exec i s = complete d w (encode i).length i.rowId.index s) :
    step s = .next (afterTry s d w (encode i).length i.rowId.index) :=
  calc step s = exec i s := (stepRunsTheDecodedInstruction s i _).2 i.rowId hissued (decodeRow_of_holds hw h)
    _ = _ := (he s).trans (complete_try hissued.1 _ _ _ _)

/-- A meaning completes with the length of the instruction's encoding and the index of its row. -/
theorem exec_length_row {i : Instr} {d : Decoded} {w : Bool} {len row : Nat}
    (he : ∀ s, exec i s = complete d w len row s) : len = (encode i).length ∧ row = i.rowId.index := by
  obtain ⟨_, _, hshape⟩ := exec_shape i
  have hs := (he (State.reset.issue .next)).symm.trans (hshape _)
  rw [complete_next rfl, complete_next rfl] at hs
  cases congrArg State.replies (Host.Outcome.next.inj hs)
  exact ⟨rfl, rfl⟩

theorem refTable_index (r : RowId) : refTable[r.index]? = some r.row := by
  rw [refTable, List.getElem?_map]
  exact congrArg (Option.map RowId.row) (RowId.ofIndex_index r)

/-- What the rule of a row says of a well-formed instruction is what the instruction's meaning completes with. -/
theorem rowGives_of_exec {i : Instr} {fields : List Descriptor} {dec : Decoded} {w : Bool} {len row : Nat}
    (hw : i.wf = true) (hrow : i.rowId.row = ⟨dec.tag, fields⟩) (he : ∀ s, exec i s = complete dec w len row s) :
    RowGives i fields (encode i) dec w i.rowId.index := by
  obtain ⟨rfl, rfl⟩ := exec_length_row he
  exact {
    descriptors := hrow ▸ refTable_index i.rowId
    execNext := fun s h => (he s).trans (complete_next h _ _ _ _)
    execTry := fun s k h => (he s).trans (complete_try h _ _ _ _)
    next := fun _ hn h => step_next_of_holds hn hw h he
    tried := fun _ ht h => step_try_of_holds ht hw h he
    nextTruncated := fun _ _ hn hpos hlt h => step_next_of_cut hw h hn hpos hlt
    tryTruncated := fun _ _ ht hlt h => step_try_of_cut hw h ht hlt
    tryNoMatch := fun _ ht => step_try_of_literalDiffers ht }

/-- The same of a row with a direction bit, which decides the slots (42_decoder.md rule R108). -/
theorem rowGives_of_direction {i : Instr} {tag : Tag} {fields : List Descriptor} {d w : Bool}
    {regLike modLike : Operand} {len row : Nat} (hw : i.wf = true) (hrow : i.rowId.row = ⟨tag, fields⟩)
    (he : ∀ s, exec i s = complete (slotsByD tag d regLike modLike) w len row s) :
    RowGives i fields (encode i) (if d then ⟨tag, regLike, modLike⟩ else ⟨tag, modLike, regLike⟩) w i.rowId.index :=
  rowGives_of_exec hw (by rw [hrow]; cases d <;> rfl) he

end Sys2Proof.Machine
end

section
/-! PROOFS of the statements of 45_fmt_data_transfer.md, with the rows of 46_fmt_arithmetic.md that stand in the same
statements. A row's own part is that its instructions are well-formed, that its descriptors are those of `REF_TABLE`, and
that its meaning completes with the operands its rule names; `rowGives_of_exec` does the rest. -/

namespace Sys2Proof.Machine

/-- Settles O50: the six rows have a direction bit, and their meanings fill the slots by it. -/
theorem registerMemoryRows : Obligations.RegisterMemoryRows := by
  refine ⟨?_, ?_, ?_, ?_, ?_, ?_⟩
  all_goals exact fun _ _ _ _ hrm => rowGives_of_direction hrm rfl fun _ => rfl

/-- Settles O51: the immediate has the width that `W`, and `S` in all rows but F02, gives it. -/
theorem immediateToRegisterMemoryRows : Obligations.ImmediateToRegisterMemoryRows := by
  refine ⟨fun _ _ _ hrm hdata => rowGives_of_exec (Bool.and_eq_true_iff.mpr ⟨hrm, hdata⟩) rfl fun _ => rfl,
    ?_, ?_, ?_, ?_, ?_⟩
  all_goals exact fun _ _ _ _ hrm hdata =>
    rowGives_of_exec (Bool.and_eq_true_iff.mpr ⟨hrm, hdata⟩) rfl fun _ => rfl

/-- Settles O52: F03 names its register, the other rows the accumulator. -/
theorem immediateToRegisterRows : Obligations.ImmediateToRegisterRows := by
  refine ⟨fun _ _ _ hdata => rowGives_of_exec hdata rfl fun _ => rfl, ?_, ?_, ?_, ?_, ?_⟩
  all_goals exact fun _ _ hdata => rowGives_of_exec hdata rfl fun _ => rfl

/-- Settles O53: F04 and F05 carry an address, F06 and F07 an r/m form. -/
theorem accumulatorAndSegmentMoveRows : Obligations.AccumulatorAndSegmentMoveRows :=
  ⟨fun _ _ => rowGives_of_exec rfl rfl fun _ => rfl, fun _ _ => rowGives_of_exec rfl rfl fun _ => rfl,
    fun _ _ hrm => rowGives_of_exec hrm rfl fun _ => rfl, fun _ _ hrm => rowGives_of_exec hrm rfl fun _ => rfl⟩

/-- Settles O54: `push`, then `pop`, each of an r/m form, a register and a segment register. -/
theorem stackRows : Obligations.StackRows :=
  ⟨fun _ hrm => rowGives_of_exec hrm rfl fun _ => rfl, fun _ => rowGives_of_exec rfl rfl fun _ => rfl,
    fun _ => rowGives_of_exec rfl rfl fun _ => rfl, fun _ hrm => rowGives_of_exec hrm rfl fun _ => rfl,
    fun _ => rowGives_of_exec rfl rfl fun _ => rfl, fun _ => rowGives_of_exec rfl rfl fun _ => rfl⟩

/-- Settles O55: but for `xchg` with the accumulator the rows carry an r/m form. -/
theorem exchangeAndPointerRows : Obligations.ExchangeAndPointerRows := by
  refine ⟨fun _ _ _ hrm => rowGives_of_exec hrm rfl fun _ => rfl, fun _ => rowGives_of_exec rfl rfl fun _ => rfl,
    ?_, ?_, ?_⟩
  all_goals exact fun _ _ hrm => rowGives_of_exec hrm rfl fun _ => rfl

/-- Settles O56: the fixed port is the narrow immediate that the row carries, `DX` a register that it implies. -/
theorem portRows : Obligations.PortRows :=
  ⟨fun _ _ => rowGives_of_exec rfl rfl fun _ => rfl, fun _ => rowGives_of_exec rfl rfl fun _ => rfl,
    fun _ _ => rowGives_of_exec rfl rfl fun _ => rfl, fun _ => rowGives_of_exec rfl rfl fun _ => rfl⟩

/-- Settles O58: each row is one instruction of one byte. -/
theorem noOperandTransferRows : Obligations.NoOperandTransferRows := by
  refine ⟨?_, ?_, ?_, ?_, ?_⟩
  all_goals exact rowGives_of_exec rfl rfl fun _ => rfl

end Sys2Proof.Machine
end

section
/-! PROOFS of the statements of 46_fmt_arithmetic.md about rows with one operand and with none, each row from its
instruction's meaning by `rowGives_of_exec`. -/

namespace Sys2Proof.Machine

/-- Settles O57: but for the one-byte `inc` and `dec`, which name a word register, the rows carry an r/m form of width
`W`. -/
theorem oneOperandRows : Obligations.OneOperandRows := by
  refine ⟨fun _ _ hrm => rowGives_of_exec hrm rfl fun _ => rfl, fun _ => rowGives_of_exec rfl rfl fun _ => rfl,
    fun _ _ hrm => rowGives_of_exec hrm rfl fun _ => rfl, fun _ => rowGives_of_exec rfl rfl fun _ => rfl,
    ?neg, ?mul, ?imul, ?div, ?idiv⟩
  all_goals exact fun _ _ hrm => rowGives_of_exec hrm rfl fun _ => rfl

/-- Settles O59: each row is one instruction without fields, of one byte or, for `aam` and `aad`, two. -/
theorem noOperandArithmeticRows : Obligations.NoOperandArithmeticRows := by
  refine ⟨?aaa, ?daa, ?aas, ?das, ?aam, ?aad, ?cbw, ?cwd⟩
  all_goals exact rowGives_of_exec rfl rfl fun _ => rfl

end Sys2Proof.Machine
end

section
/-! PROOFS of the statements of 60_exceptions.md: what `TRUNCATED` records (R207), that `FATAL` is sticky (R209 and
R212), that an error is precise (R210), and that in a sound state every operation is answered (R211, R213 and R217). -/

namespace Sys2Proof.Machine

/-! ### What a truncated attempt has read -/

/-- An attempt from the cursor that raises `TRUNCATED(a)` has read a byte at every offset before `a`, and `a` is past
the end. -/
theorem truncated_at_first_missing {α : Type} {s : State} {pos : α → Nat} {a : Nat}
    (h : (Attempt.truncated a).Reads s.reader s.cur pos) : s.len ≤ a ∧ Covers s.reader s.cur a := by
  obtain ⟨-, hread, hend⟩ := h
  exact ⟨State.reader_eq_pastEnd.mp hend, hread⟩

/-- Settles O12: NEXT and TRY hand a truncation on to the registers, and the attempt has read all before it. -/
theorem truncationIsRecorded : Obligations.TruncationIsRecorded := by
  intro s
  refine ⟨rfl, fun a h hlen ha => ⟨?_, truncated_at_first_missing (ha ▸ decodeAt_reads s.reader s.cur)⟩,
    fun r a h ha => ⟨?_, truncated_at_first_missing (ha ▸ decodeRow_reads s.reader s.cur r)⟩⟩
  · rw [step_next_eq h.1]
    exact nextWith_truncated h.2 hlen ha
  · rw [step_try_decodeRow h.1]
    exact tryWith_truncated (congrArg some ha) h.2

/-! ### `FATAL` is sticky -/

/-- Every index below 59 is a row's. -/
theorem RowId.exists_index {k : Nat} (hk : k < 59) : ∃ r : RowId, r.index = k := by
  cases hr : RowId.ofIndex k with
  | none => exact absurd (RowId.ofIndex_eq_none.mp hr) (Nat.not_le.mpr hk)
  | some r => exact ⟨r, RowId.index_of_ofIndex hr⟩

/-- Settles O13: each operation's own statement (O5, O11, O4) at `FATAL`; RESET and LOAD go on in every state. -/
theorem fatalIsSticky : Obligations.FatalIsSticky := by
  intro s op rest hf ho
  have hhead : s.ops.head? = some op := by rw [ho]; rfl
  refine ⟨?next, ?row, ?noRow, ?status, ?reset, ?load⟩
  case next => rintro rfl; exact (nextWhileFatal s hhead hf).1
  case row =>
    rintro k rfl hk
    obtain ⟨r, hr⟩ := RowId.exists_index hk
    exact ((tryRowOutcomes s k hhead).1 r hr).1 hf
  case noRow => rintro k rfl hk; exact ((tryRowOutcomes s k hhead).2 hk).2 hf
  case status => rintro rfl; exact (statusReportsAndChangesNothing s rest ho).1 hf
  case reset => rintro rfl; exact ⟨_, step_perform ho, rfl⟩
  case load => rintro bytes rfl; exact ⟨_, step_perform ho, rfl⟩

/-! ### Errors are precise -/

/-- Settles O14: of the effects of NEXT and of TRY, only that of a returned instruction, whose code is 0, moves `CUR` or
`LGP`, and none touches the buffer. -/
theorem errorsArePrecise : Obligations.ErrorsArePrecise := by
  intro s t op rest ho ht
  have h := step_effect_of_ops ho ht
  refine ⟨?next, ?tried⟩
  case next =>
    rintro rfl
    cases h with
    | nextInstr => exact ⟨_, rfl, fun hcode => absurd rfl hcode⟩
    | nextFatal | nextEnd | nextNoMatch | nextTruncated => exact ⟨_, rfl, fun _ => ⟨rfl, rfl, rfl, rfl⟩⟩
  case tried =>
    rintro k rfl
    cases h with
    | tryInstr => exact ⟨_, rfl, fun hcode => absurd rfl hcode⟩
    | tryFatal | tryRefused | tryNoMatch | tryTruncated => exact ⟨_, rfl, fun _ => ⟨rfl, rfl, rfl, rfl⟩⟩

/-! ### Every operation is answered -/

/-- In a sound state TRY is answered: its attempt meets no offset below `LEN` with no value. -/
theorem State.Sound.step_try_goes_on {s : State} {k : Nat} (hs : s.Sound) (h : s.ops.head? = some (.tryRow k)) :
    ∃ t, step s = .next t := by
  by_cases hk : 59 ≤ k
  · obtain hrefused | ⟨-, hfatal⟩ := step_try_noRow h hk
    · exact ⟨_, hrefused⟩
    · exact ⟨_, hfatal⟩
  obtain ⟨r, rfl⟩ := RowId.exists_index (Nat.not_le.mp hk)
  have hstep := step_try_decodeRow h
  by_cases hf : s.status = .fatal
  · exact ⟨_, hstep.trans (tryWith_fatal rfl hf)⟩
  cases hd : decodeRow s.reader s.cur r with
  | matched m =>
    obtain ⟨d, w, he⟩ := exec_shape m.1
    have hexec := (stepRunsTheDecodedInstruction s m.1 m.2).2 r ⟨h, hf⟩ hd
    exact ⟨_, hexec.trans ((he s).trans (complete_try h _ _ _ _))⟩
  | noMatch => exact ⟨_, hstep.trans (tryWith_noMatch (congrArg some hd) hf)⟩
  | truncated a => exact ⟨_, hstep.trans (tryWith_truncated (congrArg some hd) hf)⟩
  | noValue a =>
    have hreads := decodeRow_reads s.reader s.cur r
    rw [hd] at hreads
    exact absurd hreads.2.2 (hs.reader_ne_noValue a)

/-- Settles O22: LOAD, RESET and STATUS are answered in every state, NEXT and TRY in every sound one. -/
theorem soundStateAlwaysAnswers : Obligations.SoundStateAlwaysAnswers := by
  intro s hs
  cases ho : s.ops with
  | nil => exact ⟨s, step_idle ho⟩
  | cons op rest =>
    have hhead : s.ops.head? = some op := by rw [ho]; rfl
    cases op with
    | next => exact hs.step_next_goes_on hhead
    | tryRow k => exact hs.step_try_goes_on hhead
    | load bytes | reset | status => exact ⟨_, step_perform ho⟩

end Sys2Proof.Machine
end
